-- ==== Sys2Proof/Word.lean ====
section
/-! DEFINITION. The word types of the block (00_scope.md R9: every quantity is unsigned, bit 0 is the least significant) and the two fixed constants of R7. -/

namespace Sys2Proof

abbrev U8 := BitVec 8
abbrev U16 := BitVec 16
abbrev U32 := BitVec 32

/-- The lines of the command port: the longest operation word has 108 bits (30_encoding.md R80), and a C36 word
(R79) stands on lines 35:0. -/
abbrev PortWord := BitVec 108

/-- `ID_MASK`, fixed (00_scope.md R7). -/
def idMask : U16 := 0x7FF

/-- `MAX_LEN`, fixed (00_scope.md R7). -/
def maxLen : Nat := 8

end Sys2Proof
end

