-- ==== Sys2Proof/Records.lean ====
section
/-! DEFINITION. The record types of the spec's data model (10_state.md, 30_encoding.md R75 to R78) and the levels of R82. -/

namespace Sys2Proof

/-- A captured message (10_state.md R21): copied whole, never computed on. -/
structure Frame where
  identifier : U32
  length : U8
  data0 : U8
  data1 : U8
  data2 : U8
  data3 : U8
  data4 : U8
  data5 : U8
  data6 : U8
  data7 : U8
  deriving DecidableEq, Repr, Inhabited

/-- `INV_FR` (10_state.md R21): a Frame holds at most 8 data bytes. -/
abbrev Frame.wf (f : Frame) : Prop := f.length.toNat ≤ maxLen

/-- One row of the Bit-Timing Table (40_bit_timing_table.md R101). -/
structure BitTimingEntry where
  bitrate : U32
  prescaler : U16
  timeSeg1 : U8
  timeSeg2 : U8
  deriving DecidableEq, Repr, Inhabited

/-- The BusStatus record (10_state.md R16). -/
structure BusStatus where
  configured : Bool
  bitrate : U32
  filterId : U16
  maskId : U16
  deriving DecidableEq, Repr, Inhabited

/-- The two independent overflow flags (10_state.md R28 to R30). -/
structure OverflowFlags where
  hardwareLoss : Bool
  softwareLoss : Bool
  deriving DecidableEq, Repr, Inhabited

/-- OperatingMode (10_state.md R31). -/
inductive Mode where
  | configuring
  | capturing
  deriving DecidableEq, Repr, Inhabited

/-- Who issues an operation word (30_encoding.md R82, column "level"). -/
inductive Level where
  | api   -- a direct call by the mainline
  | dlg   -- a command from USER, read by the dialog
  | irq   -- the platform's interrupt binding
  | ext   -- the external asynchronous request handler
  | prim  -- a test harness using the ring primitives
  | env   -- the environment: the CAN bus
  deriving DecidableEq, Repr, Inhabited

/-- The diagnostics the Forwarder emits (10_state.md R44). -/
inductive Loss where
  | hwLoss
  | swLoss
  deriving DecidableEq, Repr, Inhabited

/-- The output events, all of them (10_state.md R44). -/
inductive Event where
  | frame (f : Frame)
  | diag (l : Loss)
  | status (s : BusStatus)
  | startFail
  | menu
  deriving DecidableEq, Repr, Inhabited

/-- The five error conditions E1 to E5, all of them (60_exceptions.md R213). -/
inductive Condition where
  | configurationNotFound      -- E1
  | noActivityDetected         -- E2
  | hardwareQueueOverflow      -- E3
  | softwareBufferOverflow     -- E4
  | startWithoutConfiguration  -- E5
  deriving DecidableEq, Repr, Inhabited

/-- The values operations return (30_encoding.md R92). -/
inductive Result where
  | none
  | status (s : BusStatus)
  | bool (b : Bool)
  | frame (f : Option Frame)
  deriving DecidableEq, Repr, Inhabited

/-- The next turn of one agent (00_scope.md R8). DESIGN CHOICE (log 1): which agent moves next is plain data in State. -/
inductive Turn where
  /-- the processor takes one labelled step: of the invocation in progress if there is one, else of MAIN (R8, R224) -/
  | cpu
  /-- the platform starts an ingest invocation if it is enabled (60_exceptions.md R221) -/
  | irq
  /-- BUS takes the step `BUS_RX f` (44_ingest_path.md R167) -/
  | bus (f : Frame)
  /-- EXT takes the step `EXT_REQ` (46_operating_state_machine.md R203) -/
  | ext
  /-- USER sends a command word (46_operating_state_machine.md R196, M2) -/
  | user (c : PortWord)
  /-- an operation word is issued on the command port at a level (30_encoding.md R82); its operation goes on through the turns listed after it (log 2) -/
  | op (lvl : Level) (c : PortWord)
  deriving DecidableEq, Repr, Inhabited

end Sys2Proof
end

