-- ==== Sys2Proof/Config.lean ====
section
/-! DEFINITION. The implementation parameters of 00_scope.md R7, as plain data, and the two free values. -/

namespace Sys2Proof

/-- `HWQ_ON_STOP` (41_bus_configurator.md R123). -/
inductive Config.OnStop where
  | retain
  | flush
  | any
  deriving DecidableEq, Repr, Inhabited

/-- The parameters of R7. They stand in State, no step writes them, and every rule reads them there, so that a claim
about every state is a claim about every value of every parameter (log 3). -/
structure Config.Params where
  /-- `K`: the ring has `N = 2^K` slots -/
  k : Nat
  /-- `DRAIN_BOUND` -/
  drainBound : Nat
  /-- `DWELL_MS`: recorded, used by no rule (42_baud_detector.md R137) -/
  dwellMs : Nat
  /-- `TABLE[0..T-1]`, in table order (40_bit_timing_table.md R102) -/
  table : List BitTimingEntry
  /-- `HWQ_DEPTH` -/
  hwqDepth : Nat
  /-- `HWQ_ON_STOP` -/
  onStop : Config.OnStop
  /-- the (prescaler, timeSeg1, timeSeg2) for which the oracle `RATE_OK` answers false (log 4) -/
  deadTimings : List (U16 × U8 × U8)
  /-- the (filterId, maskId, frame) for which `ACCEPT` answers false, the zero pair apart (log 4) -/
  rejects : List (U16 × U16 × Frame)
  deriving DecidableEq, Repr, Inhabited

/-- `N`, the number of slots (00_scope.md R7). -/
def Config.Params.n (p : Config.Params) : Nat := 2 ^ p.k

/-- `CAP`, the most frames the ring holds (00_scope.md R7). -/
def Config.Params.cap (p : Config.Params) : Nat := p.n - 1

/-- The legal parameters: `K >= 1` and `HWQ_DEPTH >= 1` (00_scope.md R7). -/
abbrev Config.Params.wf (p : Config.Params) : Prop := 1 ≤ p.k ∧ 1 ≤ p.hwqDepth

/-- The parameters at power-on: R7's defaults (N = 256, 32, 1500 ms, any); DESIGN CHOICE for the open ones (log 3, 4). -/
def Config.default : Config.Params where
  k := 8
  drainBound := 32
  dwellMs := 1500
  table := []
  hwqDepth := 1
  onStop := .any
  deadTimings := []
  rejects := []

/-- What a peripheral with `HWQ_ON_STOP = any` does at its n-th stop: true to flush (41_bus_configurator.md R123,
`draw b in {retain, flush}`). Free value (log 5). -/
opaque Config.stopDraw : Nat → Bool

/-- The n-th turn the environment takes when no turn is listed (00_scope.md R8). Free value (log 1). -/
opaque Config.turn : Nat → Turn

end Sys2Proof
end

