-- ==== Sys2Proof/Machine/State.lean ====
section
/-! DEFINITION. The state of the block as plain data, the reasons a step can stop, and the state at power-on. -/

namespace Sys2Proof.Machine

/-- RING (20_memory.md R51): slot number and Frame, numbers strictly rising; a slot that is not listed has no value
(70_reset_and_hazards.md R243; log 8). -/
abbrev Memory := List (Nat × Frame)

/-- The ring buffer (10_state.md R22 to R25). -/
structure Ring where
  slots : Memory
  head : Nat
  tail : Nat
  deriving DecidableEq, Repr

/-- The peripheral port (10_state.md R33 to R39). -/
structure Peripheral where
  prescaler : U16
  timeSeg1 : U8
  timeSeg2 : U8
  filterId : U16
  maskId : U16
  running : Bool
  rxie : Bool
  rxq : List Frame
  lost : Bool
  deriving DecidableEq, Repr

/-- Positions of the mainline loop (46_operating_state_machine.md R196). -/
inductive MainPos where
  | m0
  | m1
  | m2
  | m3
  | m4
  deriving DecidableEq, Repr

/-- Labels of the operations MAIN executes (10_state.md R42); `q1` is QUIT's write of `mode` (46 R201; DEDUCED, log 14). -/
inductive Label where
  | t1
  | t2
  | t3
  | t4
  | q1
  | s1
  | s2
  | s3
  | a0
  | a1
  | a2
  | a3
  | a4
  | a5
  | a6
  | a7
  | a8
  | d1
  | d2
  | d3
  | d4
  | d5
  | d6
  | d7
  | d8
  deriving DecidableEq, Repr

/-- Who called the operation MAIN is executing: a directly issued word, the mainline loop (at M1, M3 or M4), or QUIT (the START it begins with). The
model's own (log 14). -/
inductive Caller where
  | direct
  | loop
  | quit
  deriving DecidableEq, Repr

/-- The operations MAIN executes when they are called (30_encoding.md R82, levels API and PRIM of the consumer). -/
inductive Call where
  | cfgManual (bitrate : U32)
  | cfgAuto (verbose : Bool)
  | setFm (filterId maskId : U16)
  | getStatus (print : Bool)
  | start
  | stop
  | drain
  | rbPop
  | rbReset
  deriving DecidableEq, Repr

/-- MAIN's control state (10_state.md R42). -/
structure MainCtl where
  /-- `main.pos` -/
  pos : MainPos
  /-- `op.pos` -/
  op : Option Label
  /-- who called the operation in progress (the model's own, log 14) -/
  caller : Caller
  /-- `ad.idx` -/
  adIdx : Nat
  /-- `ad.act` -/
  adAct : Bool
  /-- `fw.h` -/
  fwH : Bool
  /-- `fw.s` -/
  fwS : Bool
  /-- `fw.t` -/
  fwT : Nat
  /-- `fw.hd` -/
  fwHd : Nat
  /-- `fw.f` -/
  fwF : Frame
  /-- `cmd` -/
  cmd : PortWord
  deriving DecidableEq, Repr

/-- Labels of the Ingest Path (44_ingest_path.md R169). -/
inductive IngPos where
  | i0
  | i1
  | i2
  | i3
  | i4
  | i5
  | i6
  deriving DecidableEq, Repr

/-- ISR's control state (10_state.md R43). -/
structure IngestCtl where
  active : Bool
  pos : IngPos
  n : Nat
  f : Frame
  nh : Nat
  deriving DecidableEq, Repr

/-- Everything the spec gives the block (INVENTORY.md, State), and the model's own fields `ret`, `level`, `userq`,
`calls`, `sched`, `drawn`. -/
structure State where
  /-- the parameters of 00_scope.md R7, read-only (log 3) -/
  cfg : Config.Params
  st : BusStatus
  rb : Ring
  ovf : OverflowFlags
  mode : Mode
  per : Peripheral
  main : MainCtl
  ing : IngestCtl
  out : List Event
  /-- what the last operation that returns a value returned (30_encoding.md R92; log 17) -/
  ret : Result
  /-- the level at which the word on the command port was issued (30_encoding.md R82; log 10) -/
  level : Level
  /-- the words USER has sent and MAIN has not read (46_operating_state_machine.md R196, M2; log 19) -/
  userq : List PortWord
  /-- the calls issued while MAIN was not free, oldest first (00_scope.md R8; log 12) -/
  calls : List Call
  /-- the agents' next turns (00_scope.md R8; log 1) -/
  sched : List Turn
  /-- how many free values have been drawn (log 1, 5) -/
  drawn : Nat
  deriving DecidableEq, Repr

/-- Why the machine stops with a fault. -/
inductive Fault where
  /-- the word on the port is no operation (30_encoding.md R89, 93 U18); raised by `issue`; safe -/
  | illegalWord
  /-- BUS delivers a record that is no Frame (44_ingest_path.md R168, a premise on the environment); raised by `envTurn`; safe (log 21) -/
  | illegalFrame
  /-- a slot is read that no push has written (70_reset_and_hazards.md R243); raised by `memRead`; safe (log 8) -/
  | slotNeverWritten
  /-- a slot number outside `0..N-1` (20_memory.md R51, R56); raised by `memRead` and `memWrite`; safe (log 9) -/
  | slotOutsideRing
  /-- a table index outside `0..T-1` (20_memory.md R53); raised by `tableRead`; safe (log 9) -/
  | indexOutsideTable
  /-- `PER_RXQ_POP` on an empty queue (10_state.md R41); raised by `perRxqPop`; safe (log 9) -/
  | queueEmpty
  deriving DecidableEq, Repr

/-- Why an operation is given no step (00_scope.md R13). All are safe: no claim can be proved of a run that reaches one. -/
inductive Refusal where
  /-- an operation that has no meaning yet; raised by `exec`'s arms only -/
  | notModelled (mnemonic : String)
  /-- CFG_MANUAL, CFG_AUTO or START with `per.running` (93 U1, U2, U4) -/
  | peripheralRunning
  /-- a break of the single-producer/single-consumer discipline (93 U3; log 13) -/
  | discipline
  /-- QUIT issued outside the dialog (93 U5) -/
  | quitOutsideDialog
  /-- a reserved code issued outside the dialog (93 U5) -/
  | reservedOutsideDialog
  deriving DecidableEq, Repr

/-- What a step of the block answers. -/
abbrev Res := Host.Outcome State Fault Refusal

/-- A Frame of zeros, the value the model names for locals the spec leaves unspecified (log 7). -/
def zeroFrame : Frame := ⟨0, 0, 0, 0, 0, 0, 0, 0, 0, 0⟩

/-- The state at power-on (10_state.md R47). Where R47 says "unspecified" the value is the model's (log 3 to 7). -/
def State.reset : State where
  cfg := Config.default
  st := ⟨false, 0, 0, 0⟩
  rb := ⟨[], 0, 0⟩
  ovf := ⟨false, false⟩
  mode := .configuring
  per := ⟨0, 0, 0, 0, 0, false, false, [], false⟩
  main := ⟨.m0, none, .direct, 0, false, false, false, 0, 0, zeroFrame, 0⟩
  ing := ⟨false, .i0, 0, zeroFrame, 0⟩
  out := []
  ret := .none
  level := .api
  userq := []
  calls := []
  sched := []
  drawn := 0

end Sys2Proof.Machine
end

