-- ==== Sys2Proof/Machine/Flags.lean ====
section
/-! DEFINITION. The overflow flags (10_state.md R28 to R30, R48), the interrupt signal (R40), the numbered registers S0 to S17 (R45). -/

namespace Sys2Proof.Machine

/-- Set `ovf.hardwareLoss` (10_state.md R28); a set flag stays set. -/
def setHardwareLoss (s : State) : State := { s with ovf := { s.ovf with hardwareLoss := true } }

/-- Set `ovf.softwareLoss` (10_state.md R29). -/
def setSoftwareLoss (s : State) : State := { s with ovf := { s.ovf with softwareLoss := true } }

/-- Clear `ovf.hardwareLoss` (45_forwarder.md R184). -/
def clearHardwareLoss (s : State) : State := { s with ovf := { s.ovf with hardwareLoss := false } }

/-- Clear `ovf.softwareLoss` (45_forwarder.md R185). -/
def clearSoftwareLoss (s : State) : State := { s with ovf := { s.ovf with softwareLoss := false } }

/-- `irq`, a level-sensitive signal (10_state.md R40). -/
def irqSignal (s : State) : Bool := s.per.rxie && !s.per.rxq.isEmpty

/-- The content of a numbered register (10_state.md R45): a field of `width` bits, or the frames of S17. -/
inductive RegValue where
  | bits (width value : Nat)
  | fifo (q : List Frame)
  deriving DecidableEq, Repr

/-- The register S`n` of 10_state.md R45; none where the table has no such number. -/
def readReg (n : Nat) (s : State) : Option RegValue :=
  match n with
  | 0 => some (.bits 1 s.st.configured.toNat)
  | 1 => some (.bits 32 s.st.bitrate.toNat)
  | 2 => some (.bits 16 s.st.filterId.toNat)
  | 3 => some (.bits 16 s.st.maskId.toNat)
  | 4 => some (.bits s.cfg.k s.rb.head)
  | 5 => some (.bits s.cfg.k s.rb.tail)
  | 6 => some (.bits 1 s.ovf.hardwareLoss.toNat)
  | 7 => some (.bits 1 s.ovf.softwareLoss.toNat)
  | 8 => some (.bits 1 (match s.mode with | .configuring => 0 | .capturing => 1))
  | 9 => some (.bits 16 s.per.prescaler.toNat)
  | 10 => some (.bits 8 s.per.timeSeg1.toNat)
  | 11 => some (.bits 8 s.per.timeSeg2.toNat)
  | 12 => some (.bits 16 s.per.filterId.toNat)
  | 13 => some (.bits 16 s.per.maskId.toNat)
  | 14 => some (.bits 1 s.per.running.toNat)
  | 15 => some (.bits 1 s.per.rxie.toNat)
  | 16 => some (.bits 1 s.per.lost.toNat)
  | 17 => some (.fifo s.per.rxq)
  | _ => none

end Sys2Proof.Machine
end

