-- ==== Sys2Proof/Syntax.lean ====
section
/-! DEFINITION. The operations of the block, one constructor per row of spec/opcode_table.json (30_encoding.md R82). -/

namespace Sys2Proof

inductive Instr where
  | cfgManual (bitrate : U32)
  | cfgAuto (verbose : Bool)
  | setFm (filterId maskId : U16)
  | getStatus (print : Bool)
  | start
  | stop
  | drain
  | quit
  | extReq
  | ingest
  | rbPush (f : Frame)
  | rbPop
  | rbReset
  | busRx (f : Frame)
  | reserved0
  | reservedF
  deriving DecidableEq, Repr

end Sys2Proof
end

