-- ==== Sys2Proof/WellFormed.lean ====
section
/-! DEFINITION. Which operations are well formed: the one check is that an operand Frame is a Frame (30_encoding.md R77, R89). -/

namespace Sys2Proof

abbrev Instr.wf (i : Instr) : Prop :=
  match i with
  | .cfgManual _ => True
  | .cfgAuto _ => True
  | .setFm _ _ => True
  | .getStatus _ => True
  | .start => True
  | .stop => True
  | .drain => True
  | .quit => True
  | .extReq => True
  | .ingest => True
  | .rbPush f => f.wf
  | .rbPop => True
  | .rbReset => True
  | .busRx f => f.wf
  | .reserved0 => True
  | .reservedF => True

/-- The same check as a Bool. -/
def Instr.isWf (i : Instr) : Bool :=
  match i with
  | .rbPush f => decide f.wf
  | .busRx f => decide f.wf
  | .cfgManual _ | .cfgAuto _ | .setFm _ _ | .getStatus _ | .start | .stop | .drain | .quit | .extReq | .ingest
  | .rbPop | .rbReset | .reserved0 | .reservedF => true

end Sys2Proof
end

