-- ==== Sys2Proof/Decode.lean ====
section
/-! DEFINITION. Operation words (30_encoding.md R79 to R89): a total decoder, then the encoder, then the record words of R75 to R78. -/

namespace Sys2Proof

/-- Why a word is no operation. -/
inductive DecodeError where
  /-- an F108 word whose `length` field exceeds 8 (30_encoding.md R89) -/
  | illegalLength
  deriving DecidableEq, Repr

/-- The Frame laid out in a 104-bit word (30_encoding.md R77). -/
def frameOfWord (w : BitVec 104) : Frame where
  identifier := w.extractLsb' 0 32
  length := w.extractLsb' 32 8
  data0 := w.extractLsb' 40 8
  data1 := w.extractLsb' 48 8
  data2 := w.extractLsb' 56 8
  data3 := w.extractLsb' 64 8
  data4 := w.extractLsb' 72 8
  data5 := w.extractLsb' 80 8
  data6 := w.extractLsb' 88 8
  data7 := w.extractLsb' 96 8

/-- `c[3:0]`, the operation code (30_encoding.md R79). -/
def opOf (c : PortWord) : BitVec 4 := c.extractLsb' 0 4

/-- `c[35:4]`, the operand of a C36 word (30_encoding.md R79). -/
def argOf (c : PortWord) : U32 := c.extractLsb' 4 32

/-- `c[107:4]`, the Frame of an F108 word (30_encoding.md R80). -/
def frameOf (c : PortWord) : Frame := frameOfWord (c.extractLsb' 4 104)

/-- An F108 operation, or its rejection (30_encoding.md R89). -/
def decodeFrameOp (mk : Frame → Instr) (c : PortWord) : Except DecodeError Instr :=
  if (frameOf c).length.toNat ≤ maxLen then .ok (mk (frameOf c)) else .error .illegalLength

/-- The decoder: the code selects the format (30_encoding.md R81, R82); a C36 word is read on lines 35:0 only (log 11);
operand bits R86 calls ignored are not read. The last case is the code 0xF. -/
def decode (c : PortWord) : Except DecodeError Instr :=
  match (opOf c).toNat with
  | 0x0 => .ok .reserved0
  | 0x1 => .ok (.cfgManual (argOf c))
  | 0x2 => .ok (.cfgAuto ((argOf c).getLsbD 0))
  | 0x3 => .ok (.setFm ((argOf c).extractLsb' 0 16) ((argOf c).extractLsb' 16 16))
  | 0x4 => .ok (.getStatus ((argOf c).getLsbD 0))
  | 0x5 => .ok .start
  | 0x6 => .ok .stop
  | 0x7 => .ok .drain
  | 0x8 => .ok .quit
  | 0x9 => .ok .extReq
  | 0xA => .ok .ingest
  | 0xB => decodeFrameOp .rbPush c
  | 0xC => .ok .rbPop
  | 0xD => .ok .rbReset
  | 0xE => decodeFrameOp .busRx c
  | _ => .ok .reservedF

/-- The instruction the decoder reads from a table word (the host's numbering of bits is the port's). -/
def decodeTableWord (nbits w : Nat) : Option Instr :=
  match decode (BitVec.ofNat 108 (w % 2 ^ nbits)) with
  | .ok i => some i
  | .error _ => none

/-- A Frame as a 104-bit word (30_encoding.md R77). -/
def frameWord (f : Frame) : BitVec 104 :=
  f.data7 ++ f.data6 ++ f.data5 ++ f.data4 ++ f.data3 ++ f.data2 ++ f.data1 ++ f.data0 ++ f.length ++ f.identifier

/-- Format C36 (30_encoding.md R79). -/
def word36 (op : BitVec 4) (arg : U32) : PortWord := (arg ++ op).setWidth 108

/-- Format F108 (30_encoding.md R80). -/
def word108 (op : BitVec 4) (f : Frame) : PortWord := frameWord f ++ op

/-- A one-bit operand in `arg[0]` (30_encoding.md R86). -/
def argFlag (b : Bool) : U32 := if b then 1 else 0

/-- The encoder, from the table of 30_encoding.md R82; ignored bits are written 0. -/
def encode (i : Instr) : PortWord :=
  match i with
  | .reserved0 => word36 0x0 0
  | .cfgManual b => word36 0x1 b
  | .cfgAuto v => word36 0x2 (argFlag v)
  | .setFm f m => word36 0x3 (m ++ f)
  | .getStatus p => word36 0x4 (argFlag p)
  | .start => word36 0x5 0
  | .stop => word36 0x6 0
  | .drain => word36 0x7 0
  | .quit => word36 0x8 0
  | .extReq => word36 0x9 0
  | .ingest => word36 0xA 0
  | .rbPush f => word108 0xB f
  | .rbPop => word36 0xC 0
  | .rbReset => word36 0xD 0
  | .busRx f => word108 0xE f
  | .reservedF => word36 0xF 0

/-- The operation code of each operation (30_encoding.md R82). -/
def Instr.opcode (i : Instr) : BitVec 4 :=
  match i with
  | .reserved0 => 0x0
  | .cfgManual _ => 0x1
  | .cfgAuto _ => 0x2
  | .setFm _ _ => 0x3
  | .getStatus _ => 0x4
  | .start => 0x5
  | .stop => 0x6
  | .drain => 0x7
  | .quit => 0x8
  | .extReq => 0x9
  | .ingest => 0xA
  | .rbPush _ => 0xB
  | .rbPop => 0xC
  | .rbReset => 0xD
  | .busRx _ => 0xE
  | .reservedF => 0xF

/-- The level at which the table lets each operation be issued directly (30_encoding.md R82; where it gives two, the
first; DESIGN CHOICE for the reserved codes, which have none: the dialog, log 10). -/
def Instr.homeLevel (i : Instr) : Level :=
  match i with
  | .cfgManual _ | .cfgAuto _ | .setFm _ _ | .getStatus _ | .start | .stop | .drain => .api
  | .quit | .reserved0 | .reservedF => .dlg
  | .extReq => .ext
  | .ingest => .irq
  | .rbPush _ | .rbPop | .rbReset => .prim
  | .busRx _ => .env

/-- BitTimingEntry as a 64-bit word (30_encoding.md R75). -/
def entryWord (e : BitTimingEntry) : BitVec 64 := e.timeSeg2 ++ e.timeSeg1 ++ e.prescaler ++ e.bitrate

/-- BusStatus as a 65-bit word (30_encoding.md R76). -/
def statusWord (s : BusStatus) : BitVec 65 := s.maskId ++ s.filterId ++ s.bitrate ++ BitVec.ofBool s.configured

/-- OperatingMode as a bit (30_encoding.md R78). -/
def modeBit (m : Mode) : BitVec 1 :=
  match m with
  | .configuring => 0
  | .capturing => 1

/-- OverflowFlags as two bits (30_encoding.md R78). -/
def flagsWord (o : OverflowFlags) : BitVec 2 := BitVec.ofBool o.softwareLoss ++ BitVec.ofBool o.hardwareLoss

end Sys2Proof
end

