-- ==== Sys2Proof/Machine/Operands.lean ====
section
/-! DEFINITION. Operand assembly (30_encoding.md R83 to R86) and the two environment predicates of 00_scope.md R7. -/

namespace Sys2Proof.Machine

/-- Identifier truncation to 11 bits (30_encoding.md R83). -/
def truncId (v : U16) : U16 := v &&& idMask

/-- Ring index reduction `v & (N-1)` (30_encoding.md R84, 20_memory.md R56). -/
def reduceIndex (p : Config.Params) (v : Nat) : Nat := v &&& (p.n - 1)

/-- The first entry in table order whose bitrate equals the operand, all 32 bits (30_encoding.md R85,
41_bus_configurator.md R109). -/
def findEntry (table : List BitTimingEntry) (bitrate : U32) : Option BitTimingEntry :=
  table.find? (fun e => e.bitrate == bitrate)

/-- `RATE_OK` (00_scope.md R7): an oracle with no law, held as the list of timings it answers false for (log 4). -/
def rateOk (p : Config.Params) (prescaler : U16) (seg1 seg2 : U8) : Bool :=
  !p.deadTimings.contains (prescaler, seg1, seg2)

/-- `ACCEPT` (00_scope.md R7): an open predicate with the one law `ACCEPT(0, 0, f) = true`, held as the list of
triples it answers false for (log 4). -/
def accept (p : Config.Params) (filterId maskId : U16) (f : Frame) : Bool :=
  (filterId == 0 && maskId == 0) || !p.rejects.contains (filterId, maskId, f)

end Sys2Proof.Machine
end

