-- ==== Sys2Proof/Machine/Ops.lean ====
section
/-! DEFINITION. The named operations every meaning is written over: RING and TABLE accesses, the peripheral port, the ring, conditions, interrupt entry and return, the frame arrival and the mode request. -/

namespace Sys2Proof.Machine

/-- Sequencing of steps that may stop. -/
def andThen (r : Res) (k : State → Res) : Res :=
  match r with
  | .next s => k s
  | .fault e => .fault e
  | .refused e => .refused e

/-! ### RING and TABLE (20_memory.md R51 to R53) -/

/-- The Frame listed for slot `i`, if any. -/
def Memory.read (m : Memory) (i : Nat) : Option Frame :=
  match m with
  | [] => none
  | (j, f) :: r => if i = j then some f else Memory.read r i

/-- List Frame `f` for slot `i`, keeping the slot numbers strictly rising. -/
def Memory.write (m : Memory) (i : Nat) (f : Frame) : Memory :=
  match m with
  | [] => [(i, f)]
  | (j, g) :: r => if i < j then (i, f) :: (j, g) :: r else if i = j then (i, f) :: r else (j, g) :: Memory.write r i f

/-- Every slot number is above `lo` and the numbers rise strictly. -/
def Memory.risesAbove (lo : Option Nat) (m : Memory) : Bool :=
  match m with
  | [] => true
  | (j, _) :: r => (match lo with | none => true | some l => decide (l < j)) && Memory.risesAbove (some j) r

/-- The canonical form of a RING of `n` slots: numbers strictly rising, each below `n`. -/
def Memory.wf (n : Nat) (m : Memory) : Bool :=
  Memory.risesAbove none m && m.all (fun c => decide (c.1 < n))

/-- `MemRead(RING+i, 1)` (20_memory.md R52). -/
def memRead (s : State) (i : Nat) (k : Frame → Res) : Res :=
  if i < s.cfg.n then
    match s.rb.slots.read i with
    | some f => k f
    | none => .fault .slotNeverWritten
  else .fault .slotOutsideRing

/-- `MemWrite(RING+i, 1, f)` (20_memory.md R52). -/
def memWrite (s : State) (i : Nat) (f : Frame) : Res :=
  if i < s.cfg.n then .next { s with rb := { s.rb with slots := s.rb.slots.write i f } }
  else .fault .slotOutsideRing

/-- `MemRead(TABLE+i, 1)` (20_memory.md R53). -/
def tableRead (s : State) (i : Nat) (k : BitTimingEntry → Res) : Res :=
  match s.cfg.table[i]? with
  | some e => k e
  | none => .fault .indexOutsideTable

/-! ### Output and results -/

/-- `emit e` (00_scope.md R10, 10_state.md R44). -/
def emit (e : Event) (s : State) : State := { s with out := s.out ++ [e] }

/-- `return v` of an operation that returns a value (30_encoding.md R92). -/
def returns (r : Result) (s : State) : State := { s with ret := r }

/-- "configured=true" with the entry's bitrate (41_bus_configurator.md R110, 42_baud_detector.md R140). -/
def configure (bitrate : U32) (s : State) : State := { s with st := { s.st with configured := true, bitrate := bitrate } }

/-- The stored identifier filter and mask (10_state.md R19, R20). -/
def storeFilter (f m : U16) (s : State) : State := { s with st := { s.st with filterId := f, maskId := m } }

/-- The configuration operations "all return the current BusStatus" (30_encoding.md R92). -/
def returnStatus (s : State) : State := returns (.status s.st) s

/-! ### MAIN's control state (10_state.md R42) -/

/-- `op.pos <- l` (00_scope.md R10). -/
def goto (l : Label) (s : State) : State := { s with main := { s.main with op := some l } }

/-- Who calls the operation that begins (log 14). -/
def calledBy (who : Caller) (s : State) : State := { s with main := { s.main with caller := who } }

/-- The operation in progress returns: `op.pos <- none`. -/
def opReturn (s : State) : State := { s with main := { s.main with op := none, caller := .direct } }

/-- `main.pos <- p`. -/
def setPos (p : MainPos) (s : State) : State := { s with main := { s.main with pos := p } }

/-- MAIN is not free for a new call: it is inside an operation (10_state.md R42, 42_baud_detector.md R143), suspended by an
invocation (00_scope.md R8, 60_exceptions.md R221), or an earlier call waits (log 12). Blocked at M2 (46 R198), as at every
other position of the loop between two operations, it is free for a direct call (DESIGN CHOICE, log 12). -/
def mainBusy (s : State) : Bool := s.main.op.isSome || s.ing.active || !s.calls.isEmpty

/-- A pop is part-way: MAIN is between `d5` and `d7` (45_forwarder.md R191). -/
def popPartWay (s : State) : Bool := s.main.op == some .d6 || s.main.op == some .d7

/-- The consumer's own context, MAIN (70_reset_and_hazards.md R250): not a handler that can preempt it (log 13). -/
def consumerContext (l : Level) : Bool :=
  match l with
  | .api => true
  | .dlg => true
  | .prim => true
  | .irq => false
  | .ext => false
  | .env => false

/-- Unrecognised input at the dialog: the menu is shown again and the dialog returns to M2 (46 R202, 30 R87, R88). -/
def menu (s : State) : State := setPos .m2 (emit .menu s)

/-- USER sends a word; MAIN reads it at M2 (46_operating_state_machine.md R196; log 19). -/
def userSends (c : PortWord) (s : State) : State := { s with userq := s.userq ++ [c] }

/-- A word of USER that is no dialog command: unrecognised input once MAIN reads it (30_encoding.md R88). -/
def unrecognised (c : PortWord) (s : State) : State := if mainBusy s then userSends c s else menu s

/-- The operation a call is of. -/
def Call.instr (c : Call) : Instr :=
  match c with
  | .cfgManual b => .cfgManual b
  | .cfgAuto v => .cfgAuto v
  | .setFm f m => .setFm f m
  | .getStatus p => .getStatus p
  | .start => .start
  | .stop => .stop
  | .drain => .drain
  | .rbPop => .rbPop
  | .rbReset => .rbReset

/-- A call that finds MAIN not free waits: a command of USER until M2 reads it, any other call until MAIN is free (log 12). -/
def waits (c : Call) (s : State) : State :=
  if s.level = .dlg then userSends (encode c.instr) s else { s with calls := s.calls ++ [c] }

/-! ### The peripheral port (10_state.md R41) -/

def perSetTiming (e : BitTimingEntry) (s : State) : State :=
  { s with per := { s.per with prescaler := e.prescaler, timeSeg1 := e.timeSeg1, timeSeg2 := e.timeSeg2 } }

def perSetFilter (f m : U16) (s : State) : State := { s with per := { s.per with filterId := f, maskId := m } }

def perStart (s : State) : State := { s with per := { s.per with running := true } }

def perIrqEnable (s : State) : State := { s with per := { s.per with rxie := true } }

def perIrqDisable (s : State) : State := { s with per := { s.per with rxie := false } }

/-- What happens to the hardware queue at this stop: the `HWQ_ON_STOP` draw of 41_bus_configurator.md R123. -/
def stopFlushes (s : State) : Bool :=
  match s.cfg.onStop with
  | .retain => false
  | .flush => true
  | .any => Config.stopDraw s.drawn

/-- `PER_STOP` (41_bus_configurator.md R123). The counter moves on at a drawn stop only. -/
def perStop (s : State) : State :=
  { s with
    per := { s.per with
      running := false
      rxq := if stopFlushes s then [] else s.per.rxq
      lost := if stopFlushes s then false else s.per.lost }
    drawn := if s.cfg.onStop = .any then s.drawn + 1 else s.drawn }

def perLostClear (s : State) : State := { s with per := { s.per with lost := false } }

/-- `PER_RXQ_POP`: a destructive read of a non-empty queue (10_state.md R41, 20_memory.md R61). -/
def perRxqPop (s : State) (k : Frame → State → Res) : Res :=
  match s.per.rxq with
  | [] => .fault .queueEmpty
  | f :: r => k f { s with per := { s.per with rxq := r } }

/-! ### Conditions (60_exceptions.md R213) -/

/-- "configured=false, bitrate=0" (41_bus_configurator.md R111, 42_baud_detector.md R140). -/
def unconfigure (s : State) : State := { s with st := { s.st with configured := false, bitrate := 0 } }

/-- `raise C`: the condition is recorded as data, in the place R213 names, and control goes on (00_scope.md R10). -/
def raise (c : Condition) (s : State) : State :=
  match c with
  | .configurationNotFound => unconfigure s
  | .noActivityDetected => unconfigure s
  | .hardwareQueueOverflow => setHardwareLoss s
  | .softwareBufferOverflow => setSoftwareLoss s
  | .startWithoutConfiguration => returns (.bool false) s

/-! ### The interrupt (60_exceptions.md R221, R224, R225) -/

/-- Entry of an invocation, step `i0`: nothing is saved, stacked or switched (60_exceptions.md R224). -/
def enterIngest (s : State) : State := { s with ing := { s.ing with active := true, pos := .i1 } }

/-- Return of an invocation, step `i6`: nothing is restored (60_exceptions.md R225). -/
def leaveIngest (s : State) : State := { s with ing := { s.ing with active := false, pos := .i0 } }

/-- An invocation is enabled: `irq` is true and none is in progress (60_exceptions.md R221). -/
def ingestEnabled (s : State) : Bool := irqSignal s && !s.ing.active

/-! ### The ring (43_ring_buffer.md) -/

/-- "the next head slot" (43_ring_buffer.md R149). -/
def nextHead (s : State) : Nat := reduceIndex s.cfg (s.rb.head + 1)

/-- `FULL` (10_state.md R26). -/
def ringFull (s : State) : Bool := nextHead s == s.rb.tail

/-- `EMPTY` (10_state.md R26). -/
def ringEmpty (s : State) : Bool := s.rb.head == s.rb.tail

/-- `OCC` (10_state.md R26). -/
def occupancy (s : State) : Nat := (s.rb.head + s.cfg.n - s.rb.tail) % s.cfg.n

/-- `rb.head <- i` -/
def setHead (i : Nat) (s : State) : State := { s with rb := { s.rb with head := i } }

/-- `rb.tail <- i` -/
def setTail (i : Nat) (s : State) : State := { s with rb := { s.rb with tail := i } }

/-- The push (43_ring_buffer.md R149 to R151): slot first, then the index; a frame that finds the ring full is dropped. -/
def ringPush (f : Frame) (s : State) : Res :=
  if ringFull s then .next (raise .softwareBufferOverflow s)
  else andThen (memWrite s s.rb.head f) (fun t => .next (setHead (nextHead s) t))

/-- The pop (43_ring_buffer.md R152): the copy first, then the release of the slot. -/
def ringPop (s : State) : Res :=
  if ringEmpty s then .next (returns (.frame none) s)
  else memRead s s.rb.tail (fun f => .next (returns (.frame (some f)) (setTail (reduceIndex s.cfg (s.rb.tail + 1)) s)))

/-- The reset of both indices (43_ring_buffer.md R154). -/
def ringReset (s : State) : State := setTail 0 (setHead 0 s)

/-- The frames the ring holds, oldest first; none for a slot never written (10_state.md R26, 43_ring_buffer.md R147). -/
def ringHeld (s : State) : List (Option Frame) :=
  (List.range (occupancy s)).map (fun j => s.rb.slots.read (reduceIndex s.cfg (s.rb.tail + j)))

/-! ### The environment's steps -/

/-- A frame is on the bus (44_ingest_path.md R167). -/
def busArrives (f : Frame) (s : State) : State :=
  if s.per.running = false then s
  else if rateOk s.cfg s.per.prescaler s.per.timeSeg1 s.per.timeSeg2 = false then s
  else if accept s.cfg s.per.filterId s.per.maskId f = false then s
  else if s.per.rxq.length < s.cfg.hwqDepth then { s with per := { s.per with rxq := s.per.rxq ++ [f] } }
  else { s with per := { s.per with lost := true } }

/-- The external asynchronous request (46_operating_state_machine.md R203). -/
def extRequest (s : State) : State := { s with mode := .configuring }

end Sys2Proof.Machine
end

