-- ==== Sys2Proof/Machine/Sequencer.lean ====
section
/-! DEFINITION. The labelled steps of MAIN's operations and of the Ingest Path, one definition a label (00_scope.md R11), the first step of a call, and how a called operation goes on through the listed turns. -/

namespace Sys2Proof.Machine

/-! ### START, t1 to t4 (41_bus_configurator.md R118), and QUIT's write q1 (46_operating_state_machine.md R201) -/

/-- START returned false to QUIT: the failure is reported and the dialog resumes (46 R201). -/
def quitFails (s : State) : State := setPos .m2 (emit .startFail s)

def stepT1 (s : State) : Res :=
  if s.per.running then .refused .peripheralRunning
  else if s.st.configured then .next (goto .t2 s)
  else if s.main.caller = .quit then .next (quitFails (opReturn (raise .startWithoutConfiguration s)))
  else .next (opReturn (raise .startWithoutConfiguration s))

def stepT2 (s : State) : Res := .next (goto .t3 (perSetFilter s.st.filterId s.st.maskId s))

def stepT3 (s : State) : Res := .next (goto .t4 (perStart s))

def stepT4 (s : State) : Res :=
  if s.main.caller = .quit then .next (goto .q1 (returns (.bool true) (perIrqEnable s)))
  else .next (opReturn (returns (.bool true) (perIrqEnable s)))

/-- `mode <- Capturing; goto M0`. -/
def stepQ1 (s : State) : Res := .next (opReturn (setPos .m0 { s with mode := .capturing }))

/-! ### STOP, s1 to s3 (41_bus_configurator.md R124) -/

def stepS1 (s : State) : Res := .next (goto .s2 (perIrqDisable s))

def stepS2 (s : State) : Res := .next (goto .s3 (perStop s))

def stepS3 (s : State) : Res := .next (opReturn (ringReset s))

/-! ### CFG_AUTO, a0 to a8 (42_baud_detector.md R131) -/

/-- `ad.idx <- i` -/
def setIdx (i : Nat) (s : State) : State := { s with main := { s.main with adIdx := i } }

def stepA0 (s : State) : Res :=
  if s.per.running then .refused .peripheralRunning else .next (goto .a1 (setIdx 0 s))

def stepA1 (s : State) : Res :=
  if s.cfg.table.length ≤ s.main.adIdx then .next (opReturn (returnStatus (raise .noActivityDetected s)))
  else .next (goto .a2 s)

def stepA2 (s : State) : Res := tableRead s s.main.adIdx (fun e => .next (goto .a3 (perSetTiming e s)))

def stepA3 (s : State) : Res := .next (goto .a4 (perSetFilter 0 0 s))

def stepA4 (s : State) : Res := .next (goto .a5 (perStart s))

/-- The dwell changes nothing (42_baud_detector.md R137). -/
def stepA5 (s : State) : Res := .next (goto .a6 s)

def stepA6 (s : State) : Res :=
  .next (goto .a7 { s with main := { s.main with adAct := !s.per.rxq.isEmpty } })

def stepA7 (s : State) : Res := .next (goto .a8 (perStop s))

def stepA8 (s : State) : Res :=
  if s.main.adAct then
    tableRead s s.main.adIdx (fun e => .next (opReturn (returnStatus (configure e.bitrate s))))
  else .next (goto .a1 (setIdx (s.main.adIdx + 1) s))

/-! ### DRAIN, d1 to d8 (45_forwarder.md R183) -/

def stepD1 (s : State) : Res := .next (goto .d2 { s with main := { s.main with fwH := s.ovf.hardwareLoss } })

def stepD2 (s : State) : Res :=
  if s.main.fwH then .next (goto .d3 (emit (.diag .hwLoss) (clearHardwareLoss s))) else .next (goto .d3 s)

def stepD3 (s : State) : Res := .next (goto .d4 { s with main := { s.main with fwS := s.ovf.softwareLoss } })

def stepD4 (s : State) : Res :=
  if s.main.fwS then .next (goto .d5 (emit (.diag .swLoss) (clearSoftwareLoss s))) else .next (goto .d5 s)

/-- `fw.t <- rb.tail; fw.hd <- rb.head` (45_forwarder.md R186). -/
def takeIndices (s : State) : State :=
  { s with main := { s.main with fwT := s.rb.tail, fwHd := s.rb.head } }

def stepD5 (s : State) : Res :=
  if ringEmpty s then .next (opReturn (takeIndices s)) else .next (goto .d6 (takeIndices s))

def stepD6 (s : State) : Res :=
  memRead s s.main.fwT (fun f => .next (goto .d7 { s with main := { s.main with fwF := f } }))

def stepD7 (s : State) : Res := .next (goto .d8 (setTail (reduceIndex s.cfg (s.main.fwT + 1)) s))

def stepD8 (s : State) : Res := .next (goto .d5 (emit (.frame s.main.fwF) s))

/-- The labelled step of MAIN's operation at label `l`. -/
def labelStep (l : Label) (s : State) : Res :=
  match l with
  | .t1 => stepT1 s
  | .t2 => stepT2 s
  | .t3 => stepT3 s
  | .t4 => stepT4 s
  | .q1 => stepQ1 s
  | .s1 => stepS1 s
  | .s2 => stepS2 s
  | .s3 => stepS3 s
  | .a0 => stepA0 s
  | .a1 => stepA1 s
  | .a2 => stepA2 s
  | .a3 => stepA3 s
  | .a4 => stepA4 s
  | .a5 => stepA5 s
  | .a6 => stepA6 s
  | .a7 => stepA7 s
  | .a8 => stepA8 s
  | .d1 => stepD1 s
  | .d2 => stepD2 s
  | .d3 => stepD3 s
  | .d4 => stepD4 s
  | .d5 => stepD5 s
  | .d6 => stepD6 s
  | .d7 => stepD7 s
  | .d8 => stepD8 s

/-- The next labelled step of the operation MAIN is executing. -/
def opStep (s : State) : Res :=
  match s.main.op with
  | some l => labelStep l s
  | none => .next s

/-! ### INGEST, i0 to i6 (44_ingest_path.md R169) -/

/-- `ing.pos <- p` -/
def setIngPos (p : IngPos) (s : State) : State := { s with ing := { s.ing with pos := p } }

def stepI0 (s : State) : Res := .next (enterIngest s)

/-- The lost-message test, once per invocation, flag first (44_ingest_path.md R170). -/
def stepI1 (s : State) : Res :=
  if s.per.lost then .next (setIngPos .i2 (perLostClear (raise .hardwareQueueOverflow s)))
  else .next (setIngPos .i2 s)

def stepI2 (s : State) : Res := .next (setIngPos .i3 { s with ing := { s.ing with n := 0 } })

def stepI3 (s : State) : Res :=
  if s.cfg.drainBound ≤ s.ing.n || s.per.rxq.isEmpty then .next (setIngPos .i6 s) else .next (setIngPos .i4 s)

def stepI4 (s : State) : Res :=
  perRxqPop s (fun f t => .next (setIngPos .i5 { t with ing := { t.ing with f := f, n := t.ing.n + 1 } }))

/-- The push of the frame just taken; its result is ignored, `ing.nh` keeps the computed next head (R172, 10 R43). -/
def stepI5 (s : State) : Res :=
  andThen (ringPush s.ing.f s)
    (fun t => .next (setIngPos .i3 { t with ing := { t.ing with nh := nextHead s } }))

def stepI6 (s : State) : Res := .next (leaveIngest s)

/-- The next labelled step of the Ingest Path. -/
def isrStep (s : State) : Res :=
  match s.ing.pos with
  | .i0 => stepI0 s
  | .i1 => stepI1 s
  | .i2 => stepI2 s
  | .i3 => stepI3 s
  | .i4 => stepI4 s
  | .i5 => stepI5 s
  | .i6 => stepI6 s

/-! ### The processor and the other agents -/

/-- One step of the processor inside an operation: MAIN does not step while an invocation is in progress (00_scope.md R8). -/
def cpuStep (s : State) : Res := if s.ing.active then isrStep s else opStep s

/-- The turns of the platform and the environment agents; `cpu` and `op` are not theirs and change nothing here. -/
def envTurn (t : Turn) (s : State) : Res :=
  match t with
  | .irq => if ingestEnabled s then stepI0 s else .next s
  | .bus f => if f.length.toNat ≤ maxLen then .next (busArrives f s) else .fault .illegalFrame
  | .ext => .next (extRequest s)
  | .user c => .next (userSends c s)
  | .cpu => .next s
  | .op _ _ => .next s

/-! ### Calls: one step of MAIN each, or the call and its first labelled step (log 15) -/

/-- CFG_MANUAL (41_bus_configurator.md R109 to R112): one MAIN step. -/
def stepCfgManual (bitrate : U32) (s : State) : Res :=
  if s.per.running then .refused .peripheralRunning
  else match findEntry s.cfg.table bitrate with
    | some e => .next (returnStatus (configure e.bitrate (perSetTiming e s)))
    | none => .next (returnStatus (raise .configurationNotFound s))

/-- SET_FM (41_bus_configurator.md R113, R114): one MAIN step. -/
def stepSetFm (filterId maskId : U16) (s : State) : Res :=
  .next (returnStatus (storeFilter (truncId filterId) (truncId maskId) s))

/-- GET_STATUS (41_bus_configurator.md R116): one MAIN step. -/
def stepGetStatus (print : Bool) (s : State) : Res :=
  .next (returnStatus (if print then emit (.status s.st) s else s))

/-- The call of an operation that has labels, with its first labelled step. -/
def beginOp (who : Caller) (l : Label) (s : State) : Res := labelStep l (goto l (calledBy who s))

/-- The first step of a call. `verbose` selects progress reporting through an out-of-scope printer: it changes no state
element and no result (42_baud_detector.md R144 (c)). -/
def callStep (who : Caller) (c : Call) (s : State) : Res :=
  match c with
  | .cfgManual b => stepCfgManual b s
  | .cfgAuto _ => beginOp who .a0 s
  | .setFm f m => stepSetFm f m s
  | .getStatus p => stepGetStatus p s
  | .start => beginOp who .t1 s
  | .stop => beginOp who .s1 s
  | .drain => beginOp who .d1 s
  | .rbPop => ringPop s
  | .rbReset => .next (ringReset s)

/-! ### Going on through the listed turns (20_memory.md R58; log 2) -/

/-- One listed turn between two labelled steps of an operation. -/
def turnInside (u : Turn) (s : State) : Res :=
  match u with
  | .cpu => cpuStep s
  | .irq => envTurn .irq s
  | .bus f => envTurn (.bus f) s
  | .ext => envTurn .ext s
  | .user c => envTurn (.user c) s
  | .op lvl c => envTurn (.op lvl c) s

/-- A turn that issues an operation word: a step of its own. -/
def isWord (u : Turn) : Bool :=
  match u with
  | .op _ _ => true
  | .cpu => false
  | .irq => false
  | .bus _ => false
  | .ext => false
  | .user _ => false

/-- The turns listed in `us`, one after another, as long as `busy`: to the return of the operation, the next operation word
or the end of the list. Beyond the list nothing is assumed: an operation that has not returned stays in progress. -/
def carryOn (busy : State → Bool) (us : List Turn) (s : State) : Res :=
  match us with
  | [] => .next s
  | u :: r =>
    if busy s && !isWord u then andThen (turnInside u { s with sched := r }) (carryOn busy r) else .next s

def opInProgress (s : State) : Bool := s.main.op.isSome

def ingestInProgress (s : State) : Bool := s.ing.active

/-- MAIN goes on with the operation it has begun. -/
def mainGoesOn (s : State) : Res := carryOn opInProgress s.sched s

/-- Who calls the operation of an issued word: the loop, at M3, where the word is a dialog command
(46_operating_state_machine.md R196), else the issuer (log 14). -/
def callerAt (l : Level) : Caller :=
  match l with
  | .dlg => .loop
  | .api => .direct
  | .irq => .direct
  | .ext => .direct
  | .prim => .direct
  | .env => .direct

/-- An issued operation of MAIN: it waits where MAIN is not free (log 12), else it is called. -/
def callMain (c : Call) (s : State) : Res :=
  if mainBusy s then .next (waits c s) else andThen (callStep (callerAt s.level) c s) mainGoesOn

/-- A directly issued ingest invocation, from `i0` (44_ingest_path.md R169, R176). -/
def runIngest (s : State) : Res := carryOn ingestInProgress s.sched (enterIngest s)

end Sys2Proof.Machine
end

