-- ==== Sys2Proof/Machine/BaudDetector.lean ====
section
/-! DEFINITION. The Baud Detector: CFG_AUTO (42_baud_detector.md). -/

namespace Sys2Proof.Machine

/-- CFG_AUTO (42_baud_detector.md R131), MAIN's at every level (DESIGN CHOICE for levels 30 R82 does not give it, log 25). -/
def execCfgAuto (verbose : Bool) (s : State) : Res := callMain (.cfgAuto verbose) s

end Sys2Proof.Machine
end

