-- ==== Sys2Proof/Machine/BusConfigurator.lean ====
section
/-! DEFINITION. The Bus Configurator: CFG_MANUAL, SET_FM, GET_STATUS, START, STOP (41_bus_configurator.md). Each is MAIN's operation whatever the level (DESIGN CHOICE for levels 30 R82 does not give it, log 25). -/

namespace Sys2Proof.Machine

/-- CFG_MANUAL (41_bus_configurator.md R109 to R112), MAIN's at every level (log 25). -/
def execCfgManual (bitrate : U32) (s : State) : Res := callMain (.cfgManual bitrate) s

/-- SET_FM (41_bus_configurator.md R113, R114), never refused, MAIN's at every level (log 25). -/
def execSetFm (filterId maskId : U16) (s : State) : Res := callMain (.setFm filterId maskId) s

/-- GET_STATUS (41_bus_configurator.md R116), never refused, MAIN's at every level (log 25). -/
def execGetStatus (print : Bool) (s : State) : Res := callMain (.getStatus print) s

/-- START (41_bus_configurator.md R118 to R121), MAIN's at every level but the dialog's (log 25); from USER it is
unrecognised input (30_encoding.md R88). -/
def execStart (s : State) : Res :=
  if s.level = .dlg then .next (unrecognised (encode .start) s) else callMain .start s

/-- STOP (41_bus_configurator.md R124 to R126); refused from a context that can preempt the consumer (R124, 70 R250). -/
def execStop (s : State) : Res :=
  if s.level = .dlg then .next (unrecognised (encode .stop) s)
  else if consumerContext s.level = false then .refused .discipline
  else callMain .stop s

end Sys2Proof.Machine
end

