-- ==== Sys2Proof/Machine/Forwarder.lean ====
section
/-! DEFINITION. The Forwarder: DRAIN (45_forwarder.md). -/

namespace Sys2Proof.Machine

/-- DRAIN (45_forwarder.md R183 to R192); only MAIN runs it (R191). -/
def execDrain (s : State) : Res :=
  if s.level = .dlg then .next (unrecognised (encode .drain) s)
  else if consumerContext s.level = false then .refused .discipline
  else callMain .drain s

end Sys2Proof.Machine
end

