-- ==== Sys2Proof/Machine/IngestPath.lean ====
section
/-! DEFINITION. The Ingest Path and frame arrival: INGEST, BUS_RX (44_ingest_path.md). -/

namespace Sys2Proof.Machine

/-- INGEST (44_ingest_path.md R169 to R177), called by the platform or directly (R176); not re-entrant (R175). -/
def execIngest (s : State) : Res :=
  if s.level = .dlg then .next (unrecognised (encode .ingest) s)
  else if s.ing.active then .refused .discipline
  else runIngest s

/-- BUS_RX (44_ingest_path.md R167), BUS's at every level but the dialog's (log 25). -/
def execBusRx (f : Frame) (s : State) : Res :=
  if s.level = .dlg then .next (unrecognised (encode (.busRx f)) s) else .next (busArrives f s)

end Sys2Proof.Machine
end

