-- ==== Sys2Proof/Machine/RingBuffer.lean ====
section
/-! DEFINITION. The ring primitives RB_PUSH, RB_POP, RB_RESET, directly issued (43_ring_buffer.md). -/

namespace Sys2Proof.Machine

/-- RB_PUSH (43_ring_buffer.md R149 to R151), one step of the producer; an invocation in progress is the producer (R148,
R160; log 13). -/
def execRbPush (f : Frame) (s : State) : Res :=
  if s.level = .dlg then .next (unrecognised (encode (.rbPush f)) s)
  else if s.ing.active then .refused .discipline
  else andThen (ringPush f s) (fun t => .next (returns (.bool (!ringFull s)) t))

/-- RB_POP (43_ring_buffer.md R152, R153), one step of the consumer, MAIN; refused while a pop of DRAIN is part-way
(45_forwarder.md R191). -/
def execRbPop (s : State) : Res :=
  if s.level = .dlg then .next (unrecognised (encode .rbPop) s)
  else if consumerContext s.level = false || popPartWay s then .refused .discipline
  else callMain .rbPop s

/-- RB_RESET (43_ring_buffer.md R154), one step of MAIN; only in the consumer's context, with no pop part-way and no
producer at work (R148, R160, 70 R250). -/
def execRbReset (s : State) : Res :=
  if s.level = .dlg then .next (unrecognised (encode .rbReset) s)
  else if consumerContext s.level = false || popPartWay s || s.ing.active then .refused .discipline
  else callMain .rbReset s

end Sys2Proof.Machine
end

