-- ==== Sys2Proof/Machine/StateMachine.lean ====
section
/-! DEFINITION. The Operating State Machine's operations QUIT and EXT_REQ (46_operating_state_machine.md) and the reserved codes (30_encoding.md R87). -/

namespace Sys2Proof.Machine

/-- The call of START by QUIT, with its step t1 (46_operating_state_machine.md R201; logs 14, 15). -/
def beginQuit (s : State) : Res := beginOp .quit .t1 s

/-- QUIT (46_operating_state_machine.md R200, R201): a dialog command only. -/
def execQuit (s : State) : Res :=
  if s.level = .dlg then
    if mainBusy s then .next (userSends (encode .quit) s) else andThen (beginQuit s) mainGoesOn
  else .refused .quitOutsideDialog

/-- EXT_REQ (46_operating_state_machine.md R203), EXT's at every level but the dialog's (log 25); its code sent by USER is
unrecognised input (30_encoding.md R88). -/
def execExtReq (s : State) : Res :=
  if s.level = .dlg then .next (unrecognised (encode .extReq) s) else .next (extRequest s)

/-- The reserved code 0x0 (30_encoding.md R87). -/
def execReserved0 (s : State) : Res :=
  if s.level = .dlg then .next (unrecognised (encode .reserved0) s) else .refused .reservedOutsideDialog

/-- The reserved code 0xF (30_encoding.md R87). -/
def execReservedF (s : State) : Res :=
  if s.level = .dlg then .next (unrecognised (encode .reservedF) s) else .refused .reservedOutsideDialog

end Sys2Proof.Machine
end

