-- ==== Sys2Proof/Machine/Dispatch.lean ====
section
/-! DEFINITION. The dispatch of an operation to its meaning, one arm per row of the opcode table. -/

namespace Sys2Proof.Machine

def exec (i : Instr) (s : State) : Host.Outcome State Fault Refusal :=
  match i with
  | .cfgManual bitrate => Sys2Proof.Machine.execCfgManual bitrate s
  | .cfgAuto verbose => Sys2Proof.Machine.execCfgAuto verbose s
  | .setFm filterId maskId => Sys2Proof.Machine.execSetFm filterId maskId s
  | .getStatus print => Sys2Proof.Machine.execGetStatus print s
  | .start => Sys2Proof.Machine.execStart s
  | .stop => Sys2Proof.Machine.execStop s
  | .drain => Sys2Proof.Machine.execDrain s
  | .quit => Sys2Proof.Machine.execQuit s
  | .extReq => Sys2Proof.Machine.execExtReq s
  | .ingest => Sys2Proof.Machine.execIngest s
  | .rbPush f => Sys2Proof.Machine.execRbPush f s
  | .rbPop => Sys2Proof.Machine.execRbPop s
  | .rbReset => Sys2Proof.Machine.execRbReset s
  | .busRx f => Sys2Proof.Machine.execBusRx f s
  | .reserved0 => Sys2Proof.Machine.execReserved0 s
  | .reservedF => Sys2Proof.Machine.execReservedF s

end Sys2Proof.Machine
end

