-- ==== Sys2Proof/Machine/Mainline.lean ====
section
/-! DEFINITION. The mainline loop M0 to M4 (46_operating_state_machine.md R196), the dialog (R198) and the issue of operation words (30_encoding.md R82). -/

namespace Sys2Proof.Machine

/-- Where MAIN goes when the operation it called from the loop has returned (46 R196). -/
def advance (s : State) : State :=
  if s.main.op.isSome then s
  else match s.main.pos with
    | .m1 => setPos .m2 s
    | .m3 => setPos .m2 s
    | .m4 => setPos .m0 s
    | .m0 => s
    | .m2 => s

/-- The next labelled step of the operation in progress. Only an operation the loop called moves `main.pos` at its return:
QUIT has set it itself (R201), and a directly issued operation leaves it. -/
def goOn (s : State) : Res := andThen (opStep s) (fun t => .next (if s.main.caller = .loop then advance t else t))

/-- Call an operation from the loop: the call and its first step are one step of MAIN (log 15). -/
def loopCall (c : Call) (s : State) : Res := andThen (callStep .loop c s) (fun t => .next (advance t))

/-- M0: one read of the mode. -/
def stepM0 (s : State) : Res :=
  .next (setPos (match s.mode with | .configuring => .m1 | .capturing => .m4) s)

/-- M2's reading of command word `c`: MAIN is at M3. -/
def readCommand (c : PortWord) (s : State) : State := { s with main := { s.main with pos := .m3, cmd := c } }

/-- M2: MAIN blocks until USER has sent a word (46 R198; log 19). -/
def stepM2 (s : State) : Res :=
  match s.userq with
  | [] => .next s
  | c :: r => .next (readCommand c { s with userq := r })

/-- M3: the dialog dispatches the command; any other word is unrecognised input (46 R196, R202, 30 R88), one that is no
operation too (log 20). -/
def stepM3 (s : State) : Res :=
  match decode s.main.cmd with
  | .ok (.cfgManual b) => loopCall (.cfgManual b) { s with level := .dlg }
  | .ok (.cfgAuto v) => loopCall (.cfgAuto v) { s with level := .dlg }
  | .ok (.setFm f m) => loopCall (.setFm f m) { s with level := .dlg }
  | .ok (.getStatus p) => loopCall (.getStatus p) { s with level := .dlg }
  | .ok .quit => beginQuit { s with level := .dlg }
  | .ok _ => .next (menu { s with level := .dlg })
  | .error _ => .next (menu { s with level := .dlg })

/-- The mainline loop at its current position (46 R196). -/
def loopStep (s : State) : Res :=
  match s.main.pos with
  | .m0 => stepM0 s
  | .m1 => loopCall .stop s
  | .m2 => stepM2 s
  | .m3 => stepM3 s
  | .m4 => loopCall .drain s

/-- One step of MAIN: the operation in progress, else the oldest call that waits (log 12), else the loop. -/
def mainStep (s : State) : Res :=
  if s.main.op.isSome then goOn s
  else match s.calls with
    | c :: q => callStep .direct c { s with calls := q }
    | [] => loopStep s

/-- MAIN is blocked at M2 with nothing to read (46 R198). -/
def dialogWaits (s : State) : Bool :=
  !mainBusy s && s.main.pos == .m2 && s.userq.isEmpty

/-- The dialog resumes at M2 where the operation it called at M3 has returned; QUIT has set the position itself (46 R196,
R201). -/
def dialogResumes (s : State) : State :=
  if s.main.op = none ∧ s.main.pos = .m3 then setPos .m2 s else s

/-- A word from USER that MAIN is waiting for: it is read (M2) and its operation is called (M3), in one step (log 19). An
operation that has not returned at the end of it stays in progress at M3. -/
def dialogCommand (c : PortWord) (s : State) : Res :=
  match decode c with
  | .ok i => andThen (exec i (readCommand c { s with level := .dlg })) (fun t => .next (dialogResumes t))
  | .error _ => .next (menu (readCommand c { s with level := .dlg }))

/-- An operation word arrives on the command port (30_encoding.md R82). A word from USER that MAIN is not waiting for
waits in `userq`; a word that is no operation is rejected (R89). DESIGN CHOICE (log 25): a word at a level R82 does not give its
code is executed all the same, as a step of the agent whose operation it is. -/
def issue (lvl : Level) (c : PortWord) (s : State) : Res :=
  if lvl = .dlg then
    if dialogWaits s then dialogCommand c s else .next (userSends c s)
  else match decode c with
    | .ok i => exec i { s with level := lvl }
    | .error _ => .fault .illegalWord

/-- One turn. -/
def takeTurn (t : Turn) (s : State) : Res :=
  match t with
  | .cpu => if s.ing.active then isrStep s else mainStep s
  | .op lvl c => issue lvl c s
  | .irq => envTurn .irq s
  | .bus f => envTurn (.bus f) s
  | .ext => envTurn .ext s
  | .user c => envTurn (.user c) s

/-- The next turn and the state after it is taken from the schedule; beyond the list it is a free value (log 1). -/
def nextTurn (s : State) : Turn × State :=
  match s.sched with
  | t :: r => (t, { s with sched := r })
  | [] => (Config.turn s.drawn, { s with drawn := s.drawn + 1 })

/-- `s` with MAIN free: no operation and no invocation in progress, no call waiting. -/
def freeMain (s : State) : State :=
  { s with main := { s.main with op := none }, ing := { s.ing with active := false }, calls := [] }

/-- `s` with an operation word issued as the very next turn, at the level R82 gives its code. MAIN must be free for it to
run at once, and for a dialog command it must wait at M2 (log 18). -/
def withWord (c : PortWord) (s : State) : State :=
  match decode c with
  | .ok i =>
    if i.homeLevel = .dlg then
      setPos .m2 { freeMain s with userq := [], sched := .op .dlg c :: s.sched }
    else { freeMain s with sched := .op i.homeLevel c :: s.sched }
  | .error _ => { s with sched := .op .api c :: s.sched }

end Sys2Proof.Machine
end

