-- ==== Sys2Proof/Machine/Step.lean ====
section
/-! DEFINITION. One step of the block: the next turn of one agent. -/

namespace Sys2Proof.Machine

def step (s : State) : Host.Outcome State Fault Refusal := takeTurn (nextTurn s).1 (nextTurn s).2

/-- `s` with the operation whose table word is `w` as what the next step issues. -/
def State.withFetchWord (s : State) (nbits w : Nat) : State := withWord (BitVec.ofNat 108 (w % 2 ^ nbits)) s

end Sys2Proof.Machine
end

