-- ==== Sys2Proof/Safety.lean ====
section
/-! DEFINITION. The invariants of the block (10_state.md, 43_ring_buffer.md R159, 41_bus_configurator.md R122, 46_operating_state_machine.md R206) and the well-formed turns, in the terms the statements use. -/

namespace Sys2Proof.Machine

/-- Turns the environment may take: BUS delivers Frames (44_ingest_path.md R168), and a word issued outside the dialog is
an operation word (30_encoding.md R89). -/
def turnOk (t : Turn) : Prop :=
  match t with
  | .cpu => True
  | .irq => True
  | .bus f => f.wf
  | .ext => True
  | .user _ => True
  | .op lvl c => lvl = .dlg ∨ ∃ i, decode c = .ok i

/-- Every turn listed in the schedule is one the environment may take. -/
def schedOk (s : State) : Prop := ∀ t ∈ s.sched, turnOk t

/-- A turn of a run in which MAIN executes only the loop of 46 R196: no operation word is issued
directly. Between the steps of a directly issued operation, too, the listed turns are these. -/
def loopTurn (t : Turn) : Prop :=
  match t with
  | .cpu => True
  | .irq => True
  | .bus f => f.wf
  | .ext => True
  | .user _ => True
  | .op _ _ => False

/-- How many turns of the processor are listed. -/
def cpuTurns (us : List Turn) : Nat :=
  match us with
  | [] => 0
  | .cpu :: r => cpuTurns r + 1
  | .irq :: r => cpuTurns r
  | .bus _ :: r => cpuTurns r
  | .ext :: r => cpuTurns r
  | .user _ :: r => cpuTurns r
  | .op _ _ :: r => cpuTurns r

/-- How many turns of the platform's interrupt binding are listed. -/
def irqTurns (us : List Turn) : Nat :=
  match us with
  | [] => 0
  | .irq :: r => irqTurns r + 1
  | .cpu :: r => irqTurns r
  | .bus _ :: r => irqTurns r
  | .ext :: r => irqTurns r
  | .user _ :: r => irqTurns r
  | .op _ _ :: r => irqTurns r

/-- The peripheral's timing registers hold entry `e` (10_state.md R34). -/
def timingIs (e : BitTimingEntry) (s : State) : Prop :=
  s.per.prescaler = e.prescaler ∧ s.per.timeSeg1 = e.timeSeg1 ∧ s.per.timeSeg2 = e.timeSeg2

/-- A label of CFG_AUTO. -/
def autoLabel (l : Label) : Bool :=
  match l with
  | .a0 | .a1 | .a2 | .a3 | .a4 | .a5 | .a6 | .a7 | .a8 => true
  | .t1 | .t2 | .t3 | .t4 | .q1 | .s1 | .s2 | .s3 | .d1 | .d2 | .d3 | .d4 | .d5 | .d6 | .d7 | .d8 => false

/-- CFG_AUTO is in progress. -/
def probing (s : State) : Bool :=
  match s.main.op with
  | some l => autoLabel l
  | none => false

/-- CFG_AUTO has programmed the entry of the current probe (label a3 to a8). -/
def probeProgrammed (l : Label) : Bool :=
  match l with
  | .a3 | .a4 | .a5 | .a6 | .a7 | .a8 => true
  | .a0 | .a1 | .a2 | .t1 | .t2 | .t3 | .t4 | .q1 | .s1 | .s2 | .s3 | .d1 | .d2 | .d3 | .d4 | .d5 | .d6 | .d7 | .d8 => false

/-- A label of START, or QUIT's write after it. -/
def startLabel (l : Label) : Bool :=
  match l with
  | .t1 | .t2 | .t3 | .t4 | .q1 => true
  | .a0 | .a1 | .a2 | .a3 | .a4 | .a5 | .a6 | .a7 | .a8 | .s1 | .s2 | .s3 | .d1 | .d2 | .d3 | .d4 | .d5 | .d6 | .d7 | .d8 =>
    false

/-- What the stored data look like in every state. -/
structure DataInv (s : State) : Prop where
  /-- the parameters are legal (00_scope.md R7) -/
  params : s.cfg.wf
  /-- `INV_ST1` (10_state.md R16) -/
  st1 : s.st.configured = false → s.st.bitrate = 0
  /-- `INV_ST2` (10_state.md R16) -/
  st2 : s.st.filterId.toNat ≤ 0x7FF ∧ s.st.maskId.toNat ≤ 0x7FF
  /-- S12, S13 hold 11-bit values (10_state.md R45) -/
  filter : s.per.filterId.toNat ≤ 0x7FF ∧ s.per.maskId.toNat ≤ 0x7FF
  /-- the indices are below N (43_ring_buffer.md R159) -/
  indices : s.rb.head < s.cfg.n ∧ s.rb.tail < s.cfg.n
  /-- RING is in canonical form -/
  slots : s.rb.slots.wf s.cfg.n = true
  /-- every stored record is a Frame (43_ring_buffer.md R159) -/
  frames : ∀ i f, s.rb.slots.read i = some f → f.wf
  /-- every slot of the held range has been written (43_ring_buffer.md R159) -/
  held : ∀ j, j < occupancy s → (s.rb.slots.read (reduceIndex s.cfg (s.rb.tail + j))).isSome = true
  /-- the hardware queue (10_state.md R38, R45) -/
  queue : s.per.rxq.length ≤ s.cfg.hwqDepth ∧ ∀ f ∈ s.per.rxq, f.wf
  /-- only Frames are forwarded (45_forwarder.md R187) -/
  events : ∀ f, Event.frame f ∈ s.out → f.wf
  /-- the locals hold Frames -/
  locals : s.ing.f.wf ∧ s.main.fwF.wf

/-- How the sequencers' positions and the peripheral's run state agree in every state. -/
structure ControlInv (s : State) : Prop where
  /-- an invocation that is about to remove a frame finds one, below the bound (44_ingest_path.md R169, R173) -/
  ingest : s.ing.active = true → s.ing.pos = .i4 → s.ing.n < s.cfg.drainBound ∧ s.per.rxq ≠ []
  /-- `INV_M2` (46_operating_state_machine.md R206) -/
  armed : s.per.rxie = true → s.per.running = true ∧ s.st.configured = true
  /-- START past its test is configured, past t3 running, at q1 armed (41_bus_configurator.md R118) -/
  starting : (s.main.op = some .t2 ∨ s.main.op = some .t3 ∨ s.main.op = some .t4 → s.st.configured = true) ∧
    (s.main.op = some .t4 → s.per.running = true) ∧ (s.main.op = some .q1 → s.per.rxie = true)
  /-- STOP past its first action, and CFG_AUTO past its test, run with the interrupt disabled (20_memory.md R67, 42 R136) -/
  disarmed : ∀ l, s.main.op = some l → l = .s2 ∨ l = .s3 ∨ (autoLabel l = true ∧ l ≠ .a0) → s.per.rxie = false
  /-- the probe index is below T between a2 and a8 (20_memory.md R53), and the entry is programmed from a3 on (42 R133) -/
  probe : ∀ l, s.main.op = some l → l = .a2 ∨ probeProgrammed l = true →
    ∃ e, s.cfg.table[s.main.adIdx]? = some e ∧ (probeProgrammed l = true → timingIs e s)
  /-- `INV_CFG` (41_bus_configurator.md R122), outside a CFG_AUTO in progress: between its a2 and its return the registers hold
  the entry being probed (R131), whatever `st` holds (DEDUCED, log 26) -/
  timing : s.st.configured = true → probing s = false →
    ∃ e ∈ s.cfg.table, e.bitrate = s.st.bitrate ∧ timingIs e s
  /-- between d5 and d7 the consumer owns a slot that is held (20_memory.md R71) -/
  popping : popPartWay s = true → s.main.fwT = s.rb.tail ∧ s.rb.head ≠ s.rb.tail
  /-- after d6 the private copy is the frame in the slot about to be released (45_forwarder.md R186, R189) -/
  copied : s.main.op = some .d7 → s.rb.slots.read s.rb.tail = some s.main.fwF

/-- The invariant every step keeps, whoever issues what. -/
structure BlockInv (s : State) : Prop where
  data : DataInv s
  control : ControlInv s

/-- Which labels belong to the operation called at a position of the loop. -/
def labelAt (p : MainPos) (l : Label) : Bool :=
  match p with
  | .m0 => false
  | .m1 => l == .s1 || l == .s2 || l == .s3
  | .m2 => false
  | .m3 => startLabel l || autoLabel l
  | .m4 => l == .d1 || l == .d2 || l == .d3 || l == .d4 || l == .d5 || l == .d6 || l == .d7 || l == .d8

/-- The bus and the ring are quiesced: interrupt disabled and ring empty. -/
def quiesced (s : State) : Prop := s.per.rxie = false ∧ s.rb.head = 0 ∧ s.rb.tail = 0

/-- The invariants of a run of the loop alone (46_operating_state_machine.md R206). -/
structure LoopInv (s : State) : Prop where
  /-- the operation in progress is the one the loop calls at `main.pos` -/
  place : ∀ l, s.main.op = some l → labelAt s.main.pos l = true
  /-- only QUIT calls START (46 R201), and the loop calls every other operation; no call waits (log 12) -/
  callers : s.calls = [] ∧ ∀ l, s.main.op = some l → s.main.caller = if startLabel l then .quit else .loop
  /-- `INV_M1` -/
  dialog : s.main.pos = .m2 ∨ s.main.pos = .m3 → s.main.op = none → s.per.running = false ∧ quiesced s
  /-- `INV_M1` inside QUIT, up to t3 -/
  quitting : s.main.op = some .t1 ∨ s.main.op = some .t2 ∨ s.main.op = some .t3 →
    s.per.running = false ∧ quiesced s
  /-- QUIT past its test -/
  starting : (s.main.op = some .t2 ∨ s.main.op = some .t3 ∨ s.main.op = some .t4 → s.st.configured = true) ∧
    (s.main.op = some .t4 → s.per.running = true ∧ quiesced s) ∧ (s.main.op = some .q1 → s.per.rxie = true)
  /-- inside CFG_AUTO the ring and the interrupt stay quiesced, and the peripheral runs from a5 to a7 only -/
  probe : probing s = true → quiesced s ∧
    (s.per.running = true → s.main.op = some .a5 ∨ s.main.op = some .a6 ∨ s.main.op = some .a7)
  /-- inside STOP -/
  stopping : (s.main.op = some .s2 ∨ s.main.op = some .s3 → s.per.rxie = false) ∧
    (s.main.op = some .s3 → s.per.running = false)
  /-- `INV_M2` -/
  armed : s.per.rxie = true → s.per.running = true ∧ s.st.configured = true
  /-- `INV_M3` -/
  capture : s.main.pos = .m4 → s.per.running = true ∧ s.per.rxie = true
  /-- Capturing is read at M0 only after a successful QUIT -/
  mode : s.mode = .capturing → (s.main.pos = .m0 ∨ s.main.pos = .m4) ∧ s.per.running = true ∧ s.per.rxie = true
  /-- `INV_M4` -/
  invocation : s.ing.active = true → s.per.rxie = true

/-! ### Runs of several steps, and the lists the statements compare -/

/-- `k` steps one after another. -/
def steps (k : Nat) (s : State) : Res :=
  match k with
  | 0 => .next s
  | j + 1 => andThen (step s) (steps j)

/-- Operations issued one after another at the level of `s`, with what each returned; none where one stops. -/
def script (is : List Instr) (s : State) : Option (List Result × State) :=
  match is with
  | [] => some ([], s)
  | i :: r =>
    match exec i s with
    | .next t => (script r t).map (fun p => (t.ret :: p.1, p.2))
    | .fault _ => none
    | .refused _ => none

/-- The bounded queue of 43_ring_buffer.md R147: the results of pushes and pops, the queue after them, and whether a push
found it full. An operation of neither kind does nothing. -/
def queueScript (cap : Nat) (is : List Instr) (q : List Frame) : List Result × List Frame × Bool :=
  match is with
  | [] => ([], q, false)
  | .rbPush f :: r =>
    if q.length < cap then
      let p := queueScript cap r (q ++ [f])
      (.bool true :: p.1, p.2.1, p.2.2)
    else
      let p := queueScript cap r q
      (.bool false :: p.1, p.2.1, true)
  | .rbPop :: r =>
    let p := queueScript cap r q.tail
    (.frame q.head? :: p.1, p.2.1, p.2.2)
  | _ :: r => queueScript cap r q

/-- A push of a Frame or a pop. -/
def pushOrPop (i : Instr) : Prop := (∃ f : Frame, f.wf ∧ i = .rbPush f) ∨ i = .rbPop

/-- The frames forwarded so far, oldest first (45_forwarder.md R187). -/
def forwarded (out : List Event) : List Frame :=
  out.filterMap (fun e => match e with
    | .frame f => some f
    | .diag _ => none
    | .status _ => none
    | .startFail => none
    | .menu => none)

/-- Every frame on its way through the block, oldest first: forwarded, released and about to be forwarded, held in the
ring, taken from the hardware queue and about to be pushed, waiting in the hardware queue (20_memory.md R70). -/
def pipeline (s : State) : List (Option Frame) :=
  (forwarded s.out).map some ++ (if s.main.op = some .d8 then [some s.main.fwF] else []) ++ ringHeld s ++
    (if s.ing.active = true ∧ s.ing.pos = .i5 then [some s.ing.f] else []) ++ s.per.rxq.map some

/-- The frames BUS brings in a list of turns, oldest first. -/
def arrivals (us : List Turn) : List Frame :=
  us.filterMap (fun u => match u with
    | .bus f => some f
    | .cpu => none
    | .irq => none
    | .ext => none
    | .user _ => none
    | .op _ _ => none)

end Sys2Proof.Machine
end

