-- ==== Sys2Proof/Certificates/Slice0/Obligations.lean ====
section
/-! DEFINITION. The statements for the provers (OBLIGATIONS.json). A hypothesis names the premises of a completion: the level of the word (log 10), `mainBusy s = false` (MAIN is free; else the operation waits, log 12), and the turns of the processor that the listed schedule gives the operation (log 2: beyond the list nothing is assumed). -/

open Sys2Proof Sys2Proof.Machine

/-! ### Operation words (30_encoding.md) -/

/-- Every operand, at every value the encoding admits, survives encoding and decoding (30 R79 to R83). -/
def Obligations.EncodeThenDecodeGivesTheOperationBack : Prop :=
  ∀ i : Instr, i.wf → decode (encode i) = .ok i

/-- The other direction: the code is read from bits 3:0, what decodes is well formed, and no operand bit is dropped
(30 R79, R80, R83). -/
def Obligations.DecodeReadsEveryOperandBit : Prop :=
  ∀ (c : PortWord) (i : Instr), decode c = .ok i →
    i.wf ∧ opOf c = i.opcode ∧
    (∀ b, i = .cfgManual b → (encode i).extractLsb' 0 36 = c.extractLsb' 0 36) ∧
    (∀ v, i = .cfgAuto v → v = c.getLsbD 4) ∧
    (∀ f m, i = .setFm f m → (encode i).extractLsb' 0 36 = c.extractLsb' 0 36) ∧
    (∀ p, i = .getStatus p → p = c.getLsbD 4) ∧
    (∀ f, i = .rbPush f → encode i = c) ∧
    (∀ f, i = .busRx f → encode i = c)

/-- 30 R86: `arg[0]` of CFG_AUTO and GET_STATUS is read, every other bit of these operands is ignored, and so is all of
`arg` where R82 gives no operand. -/
def Obligations.IgnoredOperandBitsDecodeAlike : Prop :=
  ∀ c : PortWord,
    (opOf c = 0x2 → decode c = .ok (.cfgAuto (c.getLsbD 4))) ∧
    (opOf c = 0x4 → decode c = .ok (.getStatus (c.getLsbD 4))) ∧
    (opOf c = 0x5 → decode c = .ok .start) ∧
    (opOf c = 0x6 → decode c = .ok .stop) ∧
    (opOf c = 0x7 → decode c = .ok .drain) ∧
    (opOf c = 0x8 → decode c = .ok .quit) ∧
    (opOf c = 0x9 → decode c = .ok .extReq) ∧
    (opOf c = 0xA → decode c = .ok .ingest) ∧
    (opOf c = 0xC → decode c = .ok .rbPop) ∧
    (opOf c = 0xD → decode c = .ok .rbReset)

/-- 30 R89: the decoder rejects exactly the F108 words whose length field exceeds 8, and such a word, issued outside the
dialog, performs no operation: no step follows. -/
def Obligations.LongFrameWordsAreRejected : Prop :=
  (∀ c : PortWord, (∃ e, decode c = .error e) ↔
    (opOf c = 0xB ∨ opOf c = 0xE) ∧ 8 < (c.extractLsb' 36 8).toNat) ∧
  (∀ (s : State) (lvl : Level) (c : PortWord) (r : List Turn) (e : DecodeError),
    s.sched = .op lvl c :: r → decode c = .error e → lvl ≠ .dlg → step s = .fault .illegalWord)

/-- The words of 95_test_vectors.md 2.1, written out from the encoding, decode to the operations they stand for. -/
def Obligations.WordsWrittenOutDecode : Prop :=
  decode 0x000027101 = .ok (.cfgManual 10000) ∧
  decode 0xFFFFFFFE2 = .ok (.cfgAuto false) ∧
  decode 0x000000012 = .ok (.cfgAuto true) ∧
  decode 0x0A0009003 = .ok (.setFm 0x0900 0x0A00) ∧
  decode 0x000000014 = .ok (.getStatus true) ∧
  decode 0x123456785 = .ok .start ∧
  decode 0x000000000000ADDE02000001A0B = .ok (.rbPush ⟨0x1A0, 2, 0xDE, 0xAD, 0, 0, 0, 0, 0, 0⟩) ∧
  decode 0x00000000000310020318DAF110E = .ok (.busRx ⟨0x18DAF110, 3, 0x02, 0x10, 0x03, 0, 0, 0, 0, 0⟩) ∧
  decode 0x00000000000000000900000001B = .error .illegalLength ∧
  decode 0x000012340 = .ok .reserved0

/-! ### The step, the agents and the mainline loop -/

/-- A step whose next turn is an operation word runs that operation: at once where it is issued directly or MAIN waits
for it at the dialog, else it waits for M2 (logs 10, 19). A word MAIN waits for is read and run at M3, and MAIN is back at M2
once its operation has returned (46 R196; that this is one step is log 19). At the dialog a word that is no operation is unrecognised input
(log 20). A word USER sends is appended to `userq` and nothing else changes, in every state (log 19). An operation of MAIN
executed where MAIN is not free waits, and nothing else changes (00_scope.md R8; log 12; the levels of log 25). -/
def Obligations.StepRunsTheIssuedOperation : Prop :=
  (∀ (s : State) (c : PortWord) (r : List Turn) (e : DecodeError),
    s.sched = .op .dlg c :: r → decode c = .error e → dialogWaits s = true →
      step s = .next { s with
        sched := r, level := .dlg, out := s.out ++ [.menu], main := { s.main with pos := .m2, cmd := c } }) ∧
  (∀ (s : State) (lvl : Level) (c : PortWord) (r : List Turn) (i : Instr),
    s.sched = .op lvl c :: r → decode c = .ok i →
      (lvl ≠ .dlg → step s = exec i { s with sched := r, level := lvl }) ∧
      (lvl = .dlg → dialogWaits s = true →
        step s = andThen (exec i { s with sched := r, level := .dlg, main := { s.main with pos := .m3, cmd := c } })
          (fun t => .next { t with main := { t.main with
            pos := if t.main.op = none ∧ t.main.pos = .m3 then .m2 else t.main.pos } })) ∧
      (lvl = .dlg → dialogWaits s = false → step s = .next { s with sched := r, userq := s.userq ++ [c] })) ∧
  (∀ (s : State) (c : PortWord) (r : List Turn), s.sched = .user c :: r →
    step s = .next { s with sched := r, userq := s.userq ++ [c] }) ∧
  (∀ s : State, s.main.op ≠ none ∨ s.ing.active = true ∨ s.calls ≠ [] →
    (s.level = .dlg → ∀ i, exec i s = .next { s with userq := s.userq ++ [encode i] }) ∧
    (s.level ≠ .dlg →
      (∀ b, exec (.cfgManual b) s = .next { s with calls := s.calls ++ [.cfgManual b] }) ∧
      (∀ v, exec (.cfgAuto v) s = .next { s with calls := s.calls ++ [.cfgAuto v] }) ∧
      (∀ f m, exec (.setFm f m) s = .next { s with calls := s.calls ++ [.setFm f m] }) ∧
      (∀ p, exec (.getStatus p) s = .next { s with calls := s.calls ++ [.getStatus p] }) ∧
      exec .start s = .next { s with calls := s.calls ++ [.start] }) ∧
    (s.level = .api ∨ s.level = .prim →
      exec .stop s = .next { s with calls := s.calls ++ [.stop] } ∧
      exec .drain s = .next { s with calls := s.calls ++ [.drain] } ∧
      (popPartWay s = false →
        exec .rbPop s = .next { s with calls := s.calls ++ [.rbPop] } ∧
        (s.ing.active = false → exec .rbReset s = .next { s with calls := s.calls ++ [.rbReset] }))))

/-- The word placed by `State.withFetchWord` is the operation the very next step runs, at the level R82 gives its code (log 18). -/
def Obligations.PlacedWordRunsNext : Prop :=
  ∀ (s : State) (c : PortWord) (i : Instr), decode c = .ok i →
    (i.homeLevel ≠ .dlg →
      step (s.withFetchWord 108 c.toNat) = exec i { s with
        level := i.homeLevel
        main := { s.main with op := none }
        ing := { s.ing with active := false }
        calls := [] }) ∧
    (i.homeLevel = .dlg →
      step (s.withFetchWord 108 c.toNat) = andThen
        (exec i { s with
          level := .dlg
          main := { s.main with pos := .m3, op := none, cmd := c }
          ing := { s.ing with active := false }
          calls := []
          userq := [] })
        (fun t => .next { t with main := { t.main with
          pos := if t.main.op = none ∧ t.main.pos = .m3 then .m2 else t.main.pos } }))

/-- MAIN's step (46 R196, R198): inside an operation its next labelled step, after which an operation the loop called at M1
or M3 leaves MAIN at M2, and DRAIN called at M4 leaves it at M0; else the oldest call that waits, run as it would be issued
now with nothing listed (log 12); else the test of the mode at M0, the calls at M1 and M4, blocking and reading at M2. That a
call and its first labelled step, and its last step and the move, are one step is log 15; `userq` is log 19; `caller` log 14. -/
def Obligations.MainlineLoopSteps : Prop :=
  ∀ (s : State) (r : List Turn), s.sched = .cpu :: r → s.ing.active = false →
    (∀ l, s.main.op = some l →
      (∀ t, labelStep l { s with sched := r } = .next t →
        (t.main.op ≠ none ∨ s.main.caller ≠ .loop → step s = .next t) ∧
        (t.main.op = none → s.main.caller = .loop → t.main.pos = .m1 ∨ t.main.pos = .m3 →
          step s = .next { t with main := { t.main with pos := .m2 } }) ∧
        (t.main.op = none → s.main.caller = .loop → t.main.pos = .m4 →
          step s = .next { t with main := { t.main with pos := .m0 } })) ∧
      (∀ e, labelStep l { s with sched := r } = .fault e → step s = .fault e) ∧
      (∀ e, labelStep l { s with sched := r } = .refused e → step s = .refused e)) ∧
    (∀ c q t, s.main.op = none → s.calls = c :: q →
      exec c.instr { s with sched := [], calls := [], level := .api } = .next t →
        step s = .next { t with sched := r, calls := q, level := s.level }) ∧
    (s.main.op = none → s.calls = [] →
      (s.main.pos = .m0 → s.mode = .configuring →
        step s = .next { s with sched := r, main := { s.main with pos := .m1 } }) ∧
      (s.main.pos = .m0 → s.mode = .capturing →
        step s = .next { s with sched := r, main := { s.main with pos := .m4 } }) ∧
      (s.main.pos = .m1 →
        step s = .next { s with
          sched := r, per := { s.per with rxie := false }
          main := { s.main with op := some .s2, caller := .loop } }) ∧
      (s.main.pos = .m2 → s.userq = [] → step s = .next { s with sched := r }) ∧
      (∀ c q, s.main.pos = .m2 → s.userq = c :: q →
        step s = .next { s with sched := r, userq := q, main := { s.main with pos := .m3, cmd := c } }) ∧
      (s.main.pos = .m4 →
        step s = .next { s with
          sched := r
          main := { s.main with fwH := s.ovf.hardwareLoss, op := some .d2, caller := .loop } }))

/-- M3 (46 R196, R198, R201): a one-step command runs and the dialog returns to M2; CFG_AUTO and QUIT begin. The model's
choices in it: the call and its step a0 or t1 are one step (log 15), START_FAIL is emitted in step t1 and who called is
recorded (log 14), the level becomes the dialog's (log 10). -/
def Obligations.DialogDispatchesTheCommand : Prop :=
  ∀ (s : State) (r : List Turn), s.sched = .cpu :: r → s.ing.active = false → s.main.op = none → s.calls = [] →
    s.main.pos = .m3 →
    (∀ i, decode s.main.cmd = .ok i →
      ((∃ b, i = .cfgManual b) ∨ (∃ f m, i = .setFm f m) ∨ ∃ p, i = .getStatus p) →
        step s = andThen (exec i { s with sched := r, level := .dlg })
          (fun t => .next { t with main := { t.main with pos := .m2 } })) ∧
    (∀ v, decode s.main.cmd = .ok (.cfgAuto v) → s.per.running = false →
      step s = .next { s with
        sched := r, level := .dlg, main := { s.main with op := some .a1, caller := .loop, adIdx := 0 } }) ∧
    (decode s.main.cmd = .ok .quit → s.per.running = false → s.st.configured = true →
      step s = .next { s with
        sched := r, level := .dlg, main := { s.main with op := some .t2, caller := .quit } }) ∧
    (decode s.main.cmd = .ok .quit → s.per.running = false → s.st.configured = false →
      step s = .next { s with
        sched := r, level := .dlg, ret := .bool false, out := s.out ++ [.startFail]
        main := { s.main with pos := .m2, op := none, caller := .direct } })

/-- 46 R202: an operation word whose code is not one of the five commands emits MENU and returns to M2; nothing else of the
spec's state changes (`level` is the model's, log 10). The same of an operation itself, issued at the dialog's level with MAIN
free. -/
def Obligations.UnrecognisedInputShowsTheMenu : Prop :=
  (∀ (s : State) (r : List Turn), s.sched = .cpu :: r → s.ing.active = false → s.main.op = none → s.calls = [] →
    s.main.pos = .m3 →
    opOf s.main.cmd ≠ 0x1 → opOf s.main.cmd ≠ 0x2 → opOf s.main.cmd ≠ 0x3 → opOf s.main.cmd ≠ 0x4 →
    opOf s.main.cmd ≠ 0x8 →
      step s = .next { s with
        sched := r, level := .dlg, out := s.out ++ [.menu], main := { s.main with pos := .m2 } }) ∧
  (∀ (s : State) (i : Instr), s.level = .dlg → mainBusy s = false →
    i.opcode ≠ 0x1 → i.opcode ≠ 0x2 → i.opcode ≠ 0x3 → i.opcode ≠ 0x4 → i.opcode ≠ 0x8 →
      exec i s = .next { s with out := s.out ++ [.menu], main := { s.main with pos := .m2 } })

/-- 30 R87: the two reserved codes, at the dialog and at the API level; that they are refused at the other levels too is
log 25 (DESIGN CHOICE). -/
def Obligations.ReservedCodesMenuOrRefused : Prop :=
  (∀ c : PortWord, (decode c = .ok .reserved0 ↔ opOf c = 0x0) ∧ (decode c = .ok .reservedF ↔ opOf c = 0xF)) ∧
  ∀ s : State,
    (s.level = .dlg → mainBusy s = false →
      exec .reserved0 s = .next { s with out := s.out ++ [.menu], main := { s.main with pos := .m2 } } ∧
      exec .reservedF s = .next { s with out := s.out ++ [.menu], main := { s.main with pos := .m2 } }) ∧
    (s.level ≠ .dlg →
      exec .reserved0 s = .refused .reservedOutsideDialog ∧ exec .reservedF s = .refused .reservedOutsideDialog)

/-- 46 R197: MAIN alone stepping from M0 with `mode` Configuring runs STOP and reaches the dialog with the bus and the ring
quiesced. That four steps suffice is log 15 (DEDUCED: a call and its first labelled step are one step, and so are its last
step and the move to M2). -/
def Obligations.EnteringConfiguringStopsTheBus : Prop :=
  ∀ (s : State) (r : List Turn), s.sched = .cpu :: .cpu :: .cpu :: .cpu :: r →
    s.ing.active = false → s.main.op = none → s.calls = [] → s.main.pos = .m0 → s.mode = .configuring →
      ∃ t, steps 4 s = .next t ∧ t.sched = r ∧ t.main.pos = .m2 ∧ t.main.op = none ∧
        t.per.running = false ∧ t.per.rxie = false ∧ t.rb = { s.rb with head := 0, tail := 0 } ∧
        t.st = s.st ∧ t.ovf = s.ovf ∧ t.out = s.out ∧ t.mode = .configuring ∧ t.cfg = s.cfg

/-- 46 R203: the request writes `mode` and nothing else, in every state; issued as an operation at a level R82 does not give
it, by log 25 (DESIGN CHOICE). -/
def Obligations.ExtRequestWritesOnlyMode : Prop :=
  (∀ c : PortWord, opOf c = 0x9 → decode c = .ok .extReq) ∧
  (∀ s : State, s.level ≠ .dlg → exec .extReq s = .next { s with mode := .configuring }) ∧
  (∀ (s : State) (r : List Turn), s.sched = .ext :: r → step s = .next { s with sched := r, mode := .configuring })

/-! ### Invariants of the whole machine -/

/-- The power-on values 10_state.md R47 gives (the other fields are the model's choice, logs 3 to 7, 10, 17, 19). -/
def Obligations.PowerOnValues : Prop :=
  State.reset.mode = .configuring ∧ State.reset.st = ⟨false, 0, 0, 0⟩ ∧
  State.reset.rb.head = 0 ∧ State.reset.rb.tail = 0 ∧ State.reset.ovf = ⟨false, false⟩ ∧
  State.reset.per.running = false ∧ State.reset.per.rxie = false ∧ State.reset.per.lost = false ∧
  State.reset.per.rxq = [] ∧ State.reset.main.pos = .m0 ∧ State.reset.main.op = none ∧
  State.reset.ing.active = false ∧ State.reset.out = [] ∧ (∀ i, State.reset.rb.slots.read i = none)

/-- Both invariants hold at power-on. -/
def Obligations.InvariantsHoldAtPowerOn : Prop := BlockInv State.reset ∧ LoopInv State.reset

/-- Whoever issues what, every step keeps `BlockInv`: `INV_ST1`, `INV_ST2`, `INV_FR`, `INV_CFG`, the ring invariants of 43 R159,
the slot exclusion of 20 R71. `INV_CFG` is stated outside a CFG_AUTO in progress (DEDUCED, log 26). -/
def Obligations.EveryStepKeepsInv : Prop :=
  ∀ s t : State, BlockInv s → step s = .next t → BlockInv t

/-- No step faults from a state with `BlockInv` while the environment keeps its premises: BUS delivers Frames, a direct call is an
operation word (44 R168, 30 R89). -/
def Obligations.LegalTurnsNeverFault : Prop :=
  ∀ (s : State) (u : Turn) (r : List Turn) (e : Fault), BlockInv s → s.sched = u :: r → schedOk s → step s ≠ .fault e

/-- 46 R206: in a run of the loop alone every step goes on, so no refusal is reachable, and keeps `INV_M1` to `INV_M4`. -/
def Obligations.LoopRunsWithoutRefusal : Prop :=
  ∀ (s : State) (u : Turn) (r : List Turn), BlockInv s → LoopInv s → s.sched = u :: r → loopTurn u →
    ∃ t, step s = .next t ∧ LoopInv t ∧
      (t.main.pos = .m2 ∨ t.main.pos = .m3 →
        (∀ l, t.main.op = some l → l ≠ .t4 ∧ l ≠ .q1 ∧ l ≠ .a3 ∧ l ≠ .a4 ∧ l ≠ .a5 ∧ l ≠ .a6 ∧ l ≠ .a7) →
          t.per.running = false ∧ t.per.rxie = false ∧ t.rb.head = 0 ∧ t.rb.tail = 0) ∧
      (t.per.rxie = true → t.per.running = true ∧ t.st.configured = true) ∧
      (t.main.pos = .m4 → t.per.running = true ∧ t.per.rxie = true) ∧
      (t.ing.active = true → t.per.rxie = true)

/-- 40 R103: no step writes TABLE, nor any other parameter. -/
def Obligations.TableIsNeverWritten : Prop :=
  ∀ s t : State, step s = .next t → t.cfg = s.cfg

/-- 10_state.md R31: Capturing is written only by a QUIT whose START succeeded, Configuring only by EXT: in its own turn, as
an issued EXT_REQ, or in a turn of EXT among those an issued operation went on through (log 2). -/
def Obligations.OnlyQuitCapturesOnlyExtConfigures : Prop :=
  State.reset.mode = .configuring ∧
  ∀ (s t : State) (u : Turn) (r : List Turn), BlockInv s → s.sched = u :: r → step s = .next t →
    (s.mode = .configuring → t.mode = .capturing →
      t.per.rxie = true ∧ t.st.configured = true ∧
        ((u = .cpu ∧ s.ing.active = false ∧ s.main.op = some .q1) ∨
          ∃ c, u = .op .dlg c ∧ decode c = .ok .quit)) ∧
    (s.mode = .capturing → t.mode = .configuring →
      u = .ext ∨ ∃ lvl c, u = .op lvl c ∧
        (decode c = .ok .extReq ∨ ∃ p, r = p ++ t.sched ∧ Turn.ext ∈ p))

/-- 10_state.md R28 to R30, R48: in a run without issued words a flag is set only by the ingest step named, and cleared only by the
drain step named, which emits its one diagnostic. -/
def Obligations.OverflowFlagsHaveOneSetterAndOneClearer : Prop :=
  ∀ (s t : State) (u : Turn) (r : List Turn), s.sched = u :: r → loopTurn u → step s = .next t →
    (s.ovf.hardwareLoss = false → t.ovf.hardwareLoss = true →
      u = .cpu ∧ s.ing.active = true ∧ s.ing.pos = .i1 ∧ s.per.lost = true ∧ t.per.lost = false) ∧
    (s.ovf.softwareLoss = false → t.ovf.softwareLoss = true →
      u = .cpu ∧ s.ing.active = true ∧ s.ing.pos = .i5 ∧ ringFull s = true ∧ t.rb = s.rb) ∧
    (s.ovf.hardwareLoss = true → t.ovf.hardwareLoss = false →
      u = .cpu ∧ s.ing.active = false ∧ s.main.op = some .d2 ∧ t.out = s.out ++ [.diag .hwLoss]) ∧
    (s.ovf.softwareLoss = true → t.ovf.softwareLoss = false →
      u = .cpu ∧ s.ing.active = false ∧ s.main.op = some .d4 ∧ t.out = s.out ++ [.diag .swLoss])

/-- 10_state.md R37: in a run without issued words the interrupt enable is set by START's last step and cleared by STOP's
first, taken inside STOP, at M1, or for a STOP that waited (log 12). -/
def Obligations.InterruptEnableHasOneSetterAndOneClearer : Prop :=
  State.reset.per.rxie = false ∧
  ∀ (s t : State) (u : Turn) (r : List Turn), s.sched = u :: r → loopTurn u → step s = .next t →
    (s.per.rxie = false → t.per.rxie = true → u = .cpu ∧ s.ing.active = false ∧ s.main.op = some .t4) ∧
    (s.per.rxie = true → t.per.rxie = false →
      u = .cpu ∧ s.ing.active = false ∧
        (s.main.op = some .s1 ∨ (s.main.op = none ∧ t.main.op = some .s2 ∧
          ((s.calls = [] ∧ s.main.pos = .m1) ∨ ∃ q, s.calls = .stop :: q))))

/-- 10_state.md R19, R20: only SET_FM changes the stored filter or mask: at the dialog, issued, or one that waited (log 12). -/
def Obligations.OnlySetFmChangesTheStoredFilter : Prop :=
  ∀ (s t : State) (u : Turn) (r : List Turn), s.sched = u :: r → step s = .next t →
    t.st.filterId ≠ s.st.filterId ∨ t.st.maskId ≠ s.st.maskId →
      (u = .cpu ∧ s.ing.active = false ∧ s.main.op = none ∧
        ((s.calls = [] ∧ s.main.pos = .m3 ∧ ∃ f m, decode s.main.cmd = .ok (.setFm f m)) ∨
          ∃ f m q, s.calls = .setFm f m :: q)) ∨
      ∃ lvl c f m, u = .op lvl c ∧ decode c = .ok (.setFm f m)

/-- 20_memory.md R70: whatever the turns of a run without issued words, the frames forwarded at its end are, in order and each at most
once, frames that were in the block at its beginning or that BUS brought during it. -/
def Obligations.FramesAreForwardedInArrivalOrder : Prop :=
  ∀ (us r : List Turn) (s t : State), BlockInv s → (∀ u ∈ us, loopTurn u) → s.sched = us ++ r →
    steps us.length s = .next t →
      ((forwarded t.out).map some).Sublist (pipeline s ++ (arrivals us).map some)

/-! ### The Bus Configurator (41_bus_configurator.md) -/

/-- 41 R109, R110: the first entry in table order whose bitrate is the operand is programmed and stored; nothing else changes.
At the levels R82 does not give CFG_MANUAL this is log 25 (DESIGN CHOICE). -/
def Obligations.CfgManualMatch : Prop :=
  ∀ (s : State) (b : U32) (before after : List BitTimingEntry) (e : BitTimingEntry),
    mainBusy s = false → s.per.running = false →
    s.cfg.table = before ++ e :: after → (∀ x ∈ before, x.bitrate ≠ b) → e.bitrate = b →
      exec (.cfgManual b) s = .next { s with
        per := { s.per with prescaler := e.prescaler, timeSeg1 := e.timeSeg1, timeSeg2 := e.timeSeg2 }
        st := { s.st with configured := true, bitrate := b }
        ret := .status { s.st with configured := true, bitrate := b } }

/-- 41 R111: no entry has the operand's bitrate; the stored status becomes unconfigured, nothing else changes, and a later
START returns false. At the levels R82 does not give CFG_MANUAL and START this is log 25 (DESIGN CHOICE). -/
def Obligations.CfgManualNoMatch : Prop :=
  ∀ (s : State) (b : U32), mainBusy s = false → s.per.running = false → (∀ x ∈ s.cfg.table, x.bitrate ≠ b) →
    ∃ t, exec (.cfgManual b) s = .next t ∧
      t = { s with
        st := { s.st with configured := false, bitrate := 0 }
        ret := .status { s.st with configured := false, bitrate := 0 } } ∧
      (s.level ≠ .dlg → ∃ u, exec .start t = .next u ∧ u.ret = .bool false)

/-- 41 R112 (a), R121 (a), 42 R144 (a): refused while the peripheral runs; at the levels R82 does not give an operation by
log 25 (DESIGN CHOICE). -/
def Obligations.RefusedWhileThePeripheralRuns : Prop :=
  ∀ s : State, mainBusy s = false → s.per.running = true →
    (∀ b, exec (.cfgManual b) s = .refused .peripheralRunning) ∧
    (∀ v, exec (.cfgAuto v) s = .refused .peripheralRunning) ∧
    (s.level ≠ .dlg → exec .start s = .refused .peripheralRunning) ∧
    (s.level = .dlg → exec .quit s = .refused .peripheralRunning)

/-- 41 R113: both operands are masked with 0x7FF and stored, whatever the peripheral does; nothing else is written; never
refused. The model's choices in it: it runs alike at the levels R82 does not give it (log 25), and where MAIN is not free it
waits, so that status, peripheral and `out` stay (log 12). -/
def Obligations.SetFmStoresTheLowElevenBits : Prop :=
  ∀ (s : State) (f m : U16), opOf (encode (.setFm f m)) = 0x3 ∧ argOf (encode (.setFm f m)) = m ++ f ∧
    (mainBusy s = false → exec (.setFm f m) s = .next { s with
      st := { s.st with filterId := f &&& 0x7FF, maskId := m &&& 0x7FF }
      ret := .status { s.st with filterId := f &&& 0x7FF, maskId := m &&& 0x7FF } }) ∧
    (∃ t, exec (.setFm f m) s = .next t ∧ (mainBusy s = true → t.st = s.st ∧ t.per = s.per ∧ t.out = s.out))

/-- 41 R116: a pure read, reported where `print` is set; never refused. The model's choices in it: it runs alike at the levels
R82 does not give it (log 25), and where MAIN is not free it waits (log 12). -/
def Obligations.GetStatusReadsAndReports : Prop :=
  (∀ c : PortWord, opOf c = 0x4 → decode c = .ok (.getStatus ((argOf c).getLsbD 0))) ∧
  ∀ s : State,
    (mainBusy s = false →
      exec (.getStatus true) s = .next { s with out := s.out ++ [.status s.st], ret := .status s.st } ∧
      exec (.getStatus false) s = .next { s with ret := .status s.st }) ∧
    (∀ p, ∃ t, exec (.getStatus p) s = .next t ∧ t.st = s.st ∧ t.per = s.per)

/-- 41 R119: an unconfigured START returns false and performs no hardware action; at the levels R82 does not give it by
log 25 (DESIGN CHOICE). -/
def Obligations.StartUnconfiguredReturnsFalse : Prop :=
  ∀ s : State, mainBusy s = false → s.level ≠ .dlg → s.per.running = false → s.st.configured = false →
      exec .start s = .next { s with
        ret := .bool false, main := { s.main with op := none, caller := .direct } }

/-- 41 R120: a configured START programs the stored filter, starts the peripheral and enables the interrupt, in that order:
t1 in the step of the word, t2 to t4 in the three listed turns (log 2); at the levels R82 does not give it by log 25. -/
def Obligations.StartConfiguredArmsTheBus : Prop :=
  (∀ (s : State) (r : List Turn), s.sched = List.replicate 3 .cpu ++ r → mainBusy s = false → s.level ≠ .dlg →
    s.per.running = false → s.st.configured = true →
      exec .start s = .next { s with
        sched := r
        per := { s.per with
          filterId := s.st.filterId, maskId := s.st.maskId, running := true, rxie := true }
        ret := .bool true, main := { s.main with op := none, caller := .direct } }) ∧
  (∀ s : State,
    labelStep .t2 s = .next { s with
      per := { s.per with filterId := s.st.filterId, maskId := s.st.maskId }
      main := { s.main with op := some .t3 } } ∧
    labelStep .t3 s = .next { s with
      per := { s.per with running := true }, main := { s.main with op := some .t4 } } ∧
    (s.main.caller ≠ .quit →
      labelStep .t4 s = .next { s with
        per := { s.per with rxie := true }
        ret := .bool true, main := { s.main with op := none, caller := .direct } }))

/-- 41 R123, R126: what STOP writes (s1 in the step of the word, s2 and s3 in the two listed turns), and that it leaves
everything else: slots, flags, `out`, `st`, timing, filter, `mode`. Which levels are MAIN's is log 13 (DEDUCED), and level
prim, which R82 does not give STOP, is log 25 (DESIGN CHOICE). -/
def Obligations.StopEffect : Prop :=
  ∀ (s : State) (r : List Turn), s.sched = List.replicate 2 .cpu ++ r → mainBusy s = false →
    s.level = .api ∨ s.level = .prim →
    ∃ flush : Bool,
      (s.cfg.onStop = .retain → flush = false) ∧ (s.cfg.onStop = .flush → flush = true) ∧
      exec .stop s = .next { s with
        sched := r
        per := { s.per with
          rxie := false
          running := false
          rxq := if flush then [] else s.per.rxq
          lost := if flush then false else s.per.lost }
        rb := { s.rb with head := 0, tail := 0 }
        main := { s.main with op := none, caller := .direct }
        drawn := if s.cfg.onStop = .any then s.drawn + 1 else s.drawn }

/-- 41 R125: STOP keeps the status, so GET_STATUS after it returns it; a second STOP rewrites the same values (a draw may
flush what the first retained). Where the level is prim, which R82 does not give them, by log 25 (DESIGN CHOICE). -/
def Obligations.StopKeepsStatusAndIsIdempotent : Prop :=
  ∀ (s t : State) (r : List Turn), s.sched = List.replicate 4 .cpu ++ r → mainBusy s = false →
    s.level = .api ∨ s.level = .prim → exec .stop s = .next t →
    t.st = s.st ∧ t.mode = s.mode ∧
    t.per.prescaler = s.per.prescaler ∧ t.per.timeSeg1 = s.per.timeSeg1 ∧ t.per.timeSeg2 = s.per.timeSeg2 ∧
    t.per.filterId = s.per.filterId ∧ t.per.maskId = s.per.maskId ∧
    (∀ p, ∃ v, exec (.getStatus p) t = .next v ∧ v.ret = .status s.st) ∧
    ∃ u, exec .stop t = .next u ∧
      u = { t with sched := r, per := { t.per with rxq := u.per.rxq, lost := u.per.lost }, drawn := u.drawn } ∧
      ((u.per.rxq = t.per.rxq ∧ u.per.lost = t.per.lost) ∨ (u.per.rxq = [] ∧ u.per.lost = false)) ∧
      (s.cfg.onStop ≠ .any → u = { t with sched := r })

/-- 41 R124: whatever turns stand between its steps, once two turns of the processor are listed STOP issued by MAIN
completes with the interrupt disabled, the peripheral stopped and the ring reset; issued from a handler it is refused; its
three steps. Which levels are MAIN's, and that irq, ext and env are the handlers', is log 13 (DEDUCED), and level prim,
which R82 does not give STOP, is log 25 (DESIGN CHOICE). -/
def Obligations.StopCompletesUnderEverySchedule : Prop :=
  (∀ (s : State) (p r : List Turn), BlockInv s → s.sched = p ++ r → (∀ u ∈ p, loopTurn u) → 2 ≤ cpuTurns p →
    mainBusy s = false → s.level = .api ∨ s.level = .prim →
    ∃ t, exec .stop s = .next t ∧ t.per.rxie = false ∧ t.per.running = false ∧ t.rb.head = 0 ∧ t.rb.tail = 0 ∧
      t.ing.active = false ∧ t.main = { s.main with op := none, caller := .direct } ∧ t.st = s.st ∧ t.out = s.out ∧
      t.per.prescaler = s.per.prescaler ∧ t.per.timeSeg1 = s.per.timeSeg1 ∧ t.per.timeSeg2 = s.per.timeSeg2 ∧
      t.per.filterId = s.per.filterId ∧ t.per.maskId = s.per.maskId) ∧
  (∀ s : State, s.level = .irq ∨ s.level = .ext ∨ s.level = .env → exec .stop s = .refused .discipline) ∧
  (∀ s : State,
    labelStep .s1 s = .next { s with
      per := { s.per with rxie := false }, main := { s.main with op := some .s2 } } ∧
    labelStep .s2 s = .next (goto .s3 (perStop s)) ∧
    labelStep .s3 s = .next { s with
      rb := { s.rb with head := 0, tail := 0 }, main := { s.main with op := none, caller := .direct } })

/-! ### The Baud Detector (42_baud_detector.md) -/

/-- 42 R131: the labelled steps of CFG_AUTO (a7's PER_STOP is that of 41 R123). -/
def Obligations.CfgAutoSteps : Prop :=
  ∀ s : State,
    (s.per.running = true → labelStep .a0 s = .refused .peripheralRunning) ∧
    (s.per.running = false →
      labelStep .a0 s = .next { s with main := { s.main with op := some .a1, adIdx := 0 } }) ∧
    (s.cfg.table.length ≤ s.main.adIdx →
      labelStep .a1 s = .next { s with
        st := { s.st with configured := false, bitrate := 0 }
        ret := .status { s.st with configured := false, bitrate := 0 }
        main := { s.main with op := none, caller := .direct } }) ∧
    (s.main.adIdx < s.cfg.table.length →
      labelStep .a1 s = .next { s with main := { s.main with op := some .a2 } }) ∧
    (∀ e, s.cfg.table[s.main.adIdx]? = some e →
      labelStep .a2 s = .next { s with
        per := { s.per with prescaler := e.prescaler, timeSeg1 := e.timeSeg1, timeSeg2 := e.timeSeg2 }
        main := { s.main with op := some .a3 } }) ∧
    labelStep .a3 s = .next { s with
      per := { s.per with filterId := 0, maskId := 0 }, main := { s.main with op := some .a4 } } ∧
    labelStep .a4 s = .next { s with
      per := { s.per with running := true }, main := { s.main with op := some .a5 } } ∧
    labelStep .a5 s = .next { s with main := { s.main with op := some .a6 } } ∧
    (∀ act, (act = true ↔ s.per.rxq ≠ []) →
      labelStep .a6 s = .next { s with main := { s.main with op := some .a7, adAct := act } }) ∧
    labelStep .a7 s = .next (goto .a8 (perStop s)) ∧
    (∀ e, s.main.adAct = true → s.cfg.table[s.main.adIdx]? = some e →
      labelStep .a8 s = .next { s with
        st := { s.st with configured := true, bitrate := e.bitrate }
        ret := .status { s.st with configured := true, bitrate := e.bitrate }
        main := { s.main with op := none, caller := .direct } }) ∧
    (s.main.adAct = false →
      labelStep .a8 s = .next { s with main := { s.main with op := some .a1, adIdx := s.main.adIdx + 1 } })

/-- 42 R140: with no arrival and an empty queue CFG_AUTO exhausts the table (a0 in the step of the word, then eight listed
turns an entry and one more); the last entry's timing and the accept-all filter stay, the peripheral is stopped. At the
levels R82 does not give CFG_AUTO (irq, ext, env, prim) this is log 25 (DESIGN CHOICE). -/
def Obligations.CfgAutoExhaustsTheTable : Prop :=
  ∀ (s : State) (v : Bool) (r : List Turn), s.sched = List.replicate (8 * s.cfg.table.length + 1) .cpu ++ r →
    mainBusy s = false → s.per.running = false → s.per.rxq = [] →
    ∃ (lost : Bool) (d : Nat),
      exec (.cfgAuto v) s = .next { s with
        sched := r
        st := { s.st with configured := false, bitrate := 0 }
        ret := .status { s.st with configured := false, bitrate := 0 }
        per := match s.cfg.table.getLast? with
          | none => s.per
          | some e => { s.per with
              prescaler := e.prescaler, timeSeg1 := e.timeSeg1, timeSeg2 := e.timeSeg2
              filterId := 0, maskId := 0, running := false, lost := lost }
        main := { s.main with
          op := none, caller := .direct, adIdx := s.cfg.table.length
          adAct := if s.cfg.table = [] then s.main.adAct else false }
        drawn := d } ∧
      (s.cfg.onStop = .retain → lost = s.per.lost) ∧ (s.cfg.onStop = .flush → lost = false) ∧
      (lost = true → s.per.lost = true) ∧ (s.cfg.onStop ≠ .any → d = s.drawn)

/-- 42 R132, R138, R142: BUS silent in the probes of the entries before `e` and one deliverable frame in the dwell of `e`:
CFG_AUTO returns `e`, probes no later entry, and touches neither ring nor flags. The listed turns are the 8 |before| + 4
steps up to `e`'s a4 (a0 is in the step of the word), the arrival, then a5 to a8. It is this one schedule; the others are in
CfgAutoCompletesUnderEverySchedule. At the levels R82 does not give CFG_AUTO (irq, ext, env, prim) this is log 25 (DESIGN
CHOICE). -/
def Obligations.CfgAutoFindsTheLiveEntry : Prop :=
  ∀ (s : State) (v : Bool) (before after : List BitTimingEntry) (e : BitTimingEntry) (f : Frame) (r : List Turn),
    s.cfg.wf → mainBusy s = false → s.per.running = false → s.per.rxq = [] → f.wf →
    s.cfg.table = before ++ e :: after → rateOk s.cfg e.prescaler e.timeSeg1 e.timeSeg2 = true →
    s.sched = List.replicate (8 * before.length + 4) .cpu ++ .bus f :: (List.replicate 4 .cpu ++ r) →
      ∃ t, exec (.cfgAuto v) s = .next t ∧
        t.st = { s.st with configured := true, bitrate := e.bitrate } ∧ t.ret = .status t.st ∧
        timingIs e t ∧ t.per.filterId = 0 ∧ t.per.maskId = 0 ∧ t.per.running = false ∧ t.per.rxie = s.per.rxie ∧
        (t.per.rxq = [f] ∨ t.per.rxq = []) ∧ t.rb = s.rb ∧ t.ovf = s.ovf ∧ t.out = s.out ∧ t.mode = s.mode ∧
        t.main.op = none ∧ t.main.pos = s.main.pos ∧ t.ing = s.ing ∧ t.sched = r ∧ t.cfg = s.cfg

/-- 42 R144 (d), 70 R255: a frame left in the queue makes the first probe succeed whatever the bus does, and whatever else
is listed, once the eight turns of the processor up to a8 are. At the levels R82 does not give CFG_AUTO (irq, ext, env,
prim) this is log 25 (DESIGN CHOICE). -/
def Obligations.CfgAutoIsFooledByAStaleFrame : Prop :=
  ∀ (s : State) (v : Bool) (e : BitTimingEntry) (after : List BitTimingEntry) (p r : List Turn),
    s.sched = p ++ r → (∀ u ∈ p, loopTurn u) → 8 ≤ cpuTurns p →
    mainBusy s = false → s.per.running = false → s.per.rxie = false → s.per.rxq ≠ [] → s.cfg.table = e :: after →
      ∃ t, exec (.cfgAuto v) s = .next t ∧ t.main.op = none ∧
        t.st = { s.st with configured := true, bitrate := e.bitrate } ∧ t.ret = .status t.st ∧ timingIs e t ∧
        t.per.filterId = 0 ∧ t.per.maskId = 0 ∧ t.per.running = false ∧ t.rb = s.rb ∧ t.ovf = s.ovf ∧ t.out = s.out

/-- 42 R136, R140, R144 (c): whatever turns stand between its steps, once eight turns of the processor an entry and one more
are listed CFG_AUTO returns with a table entry found or the table exhausted, the peripheral stopped, the interrupt disabled,
the ring and the flags untouched; with MAIN free `verbose` changes nothing (a call that waits keeps its operand, log 12). At
the levels R82 does not give CFG_AUTO (irq, ext, env, prim) this is log 25 (DESIGN CHOICE). -/
def Obligations.CfgAutoCompletesUnderEverySchedule : Prop :=
  (∀ (s : State) (v : Bool) (p r : List Turn), BlockInv s → s.sched = p ++ r → (∀ u ∈ p, loopTurn u) →
    8 * s.cfg.table.length + 1 ≤ cpuTurns p → mainBusy s = false → s.per.running = false →
    ∃ t, exec (.cfgAuto v) s = .next t ∧
      (t.st = { s.st with configured := false, bitrate := 0 } ∨
        ∃ e ∈ s.cfg.table, t.st = { s.st with configured := true, bitrate := e.bitrate } ∧ timingIs e t ∧
          t.per.filterId = 0 ∧ t.per.maskId = 0) ∧
      t.ret = .status t.st ∧ t.per.running = false ∧ t.per.rxie = false ∧ t.ing.active = false ∧
      t.rb = s.rb ∧ t.ovf = s.ovf ∧ t.out = s.out ∧ t.main.op = none ∧ t.main.pos = s.main.pos) ∧
  (∀ s : State, mainBusy s = false → exec (.cfgAuto true) s = exec (.cfgAuto false) s)

/-! ### The ring buffer (43_ring_buffer.md) -/

/-- 43 R150: a push that finds room stores the frame at head, then advances head; every other slot and everything else
unchanged; OCC grows by one. At the levels other than PRIM, to which R82 does not give RB_PUSH, this is log 25. -/
def Obligations.PushStoresAtHead : Prop :=
  ∀ (s : State) (f : Frame), s.level ≠ .dlg → s.ing.active = false → s.rb.head < s.cfg.n → s.rb.tail < s.cfg.n →
    (s.rb.head + 1) &&& (s.cfg.n - 1) ≠ s.rb.tail →
      ∃ t, exec (.rbPush f) s = .next t ∧
        t = { s with
          rb := { slots := t.rb.slots, head := (s.rb.head + 1) &&& (s.cfg.n - 1), tail := s.rb.tail }
          ret := .bool true } ∧
        t.rb.slots.read s.rb.head = some f ∧ (∀ j, j ≠ s.rb.head → t.rb.slots.read j = s.rb.slots.read j) ∧
        occupancy t = occupancy s + 1

/-- 43 R151: a push that finds the ring full sets the flag and changes nothing else. At the levels other than PRIM this is
log 25. -/
def Obligations.PushOnAFullRingDropsTheNewest : Prop :=
  ∀ (s : State) (f : Frame), s.level ≠ .dlg → s.ing.active = false →
    (s.rb.head + 1) &&& (s.cfg.n - 1) = s.rb.tail →
      exec (.rbPush f) s = .next { s with ovf := { s.ovf with softwareLoss := true }, ret := .bool false }

/-- 43 R152, R153 (a): a pop copies out the frame at tail and advances tail; an empty ring gives none and writes nothing.
Which levels are MAIN's is log 13 (DEDUCED), and level api, which R82 does not give RB_POP, is log 25 (DESIGN CHOICE). -/
def Obligations.PopTakesFromTail : Prop :=
  ∀ s : State, s.level = .api ∨ s.level = .prim → mainBusy s = false →
    (∀ f, s.rb.head ≠ s.rb.tail → s.rb.head < s.cfg.n → s.rb.tail < s.cfg.n → s.rb.slots.read s.rb.tail = some f →
      ∃ t, exec .rbPop s = .next t ∧
        t = { s with rb := { s.rb with tail := (s.rb.tail + 1) &&& (s.cfg.n - 1) }, ret := .frame (some f) } ∧
        occupancy t + 1 = occupancy s) ∧
    (s.rb.head = s.rb.tail → exec .rbPop s = .next { s with ret := .frame none })

/-- 43 R154: the reset writes both indices and nothing else. Which levels are MAIN's is log 13 (DEDUCED), and level api,
which R82 does not give RB_RESET, is log 25 (DESIGN CHOICE). -/
def Obligations.ResetZeroesBothIndices : Prop :=
  ∀ s : State, s.level = .api ∨ s.level = .prim → mainBusy s = false →
    exec .rbReset s = .next { s with rb := { s.rb with head := 0, tail := 0 } }

/-- 43 R147: what the three primitives do to the list the ring holds; at the API level, which R82 does not give them, by
log 25. -/
def Obligations.RingPrimitivesActOnTheHeldList : Prop :=
  ∀ s : State, DataInv s → s.level = .api ∨ s.level = .prim → mainBusy s = false →
    (∀ f, (ringHeld s).length < s.cfg.n - 1 →
      ∃ t, exec (.rbPush f) s = .next t ∧ t.ret = .bool true ∧ ringHeld t = ringHeld s ++ [some f] ∧ t.ovf = s.ovf) ∧
    (∀ f, (ringHeld s).length = s.cfg.n - 1 →
      ∃ t, exec (.rbPush f) s = .next t ∧ t.ret = .bool false ∧ ringHeld t = ringHeld s ∧
        t.ovf = { s.ovf with softwareLoss := true }) ∧
    (∀ x q, ringHeld s = x :: q →
      ∃ f t, x = some f ∧ exec .rbPop s = .next t ∧ t.ret = .frame (some f) ∧ ringHeld t = q ∧ t.ovf = s.ovf) ∧
    (ringHeld s = [] → ∃ t, exec .rbPop s = .next t ∧ t.ret = .frame none ∧ ringHeld t = []) ∧
    (∃ t, exec .rbReset s = .next t ∧ ringHeld t = [])

/-- 43 R155, R156: any interleaving of pushes and pops, from any ring, answers what the bounded first-in first-out queue of
`N - 1` frames answers, and loses exactly what it loses. Which levels are MAIN's is log 13 (DEDUCED), and level api, which
R82 does not give RB_PUSH and RB_POP, is log 25 (DESIGN CHOICE). -/
def Obligations.PushesAndPopsFollowTheBoundedQueue : Prop :=
  ∀ (is : List Instr) (s : State) (q : List Frame), DataInv s → s.level = .api ∨ s.level = .prim →
    mainBusy s = false → (∀ i ∈ is, pushOrPop i) → ringHeld s = q.map some →
      ∃ u, script is s = some ((queueScript (s.cfg.n - 1) is q).1, u) ∧
        ringHeld u = (queueScript (s.cfg.n - 1) is q).2.1.map some ∧
        u.ovf.softwareLoss = (s.ovf.softwareLoss || (queueScript (s.cfg.n - 1) is q).2.2) ∧
        u.ovf.hardwareLoss = s.ovf.hardwareLoss

/-- 43 R148, R160, 45 R191, 70 R250: breaks of the single-producer/single-consumer discipline are refused (log 13). A
refusal at a level R82 does not give the operation is the model's too. -/
def Obligations.DisciplineBreaksAreRefused : Prop :=
  ∀ s : State,
    (s.level = .irq ∨ s.level = .ext ∨ s.level = .env →
      exec .stop s = .refused .discipline ∧ exec .drain s = .refused .discipline ∧
      exec .rbPop s = .refused .discipline ∧ exec .rbReset s = .refused .discipline) ∧
    (s.ing.active = true → s.level ≠ .dlg →
      (∀ f, exec (.rbPush f) s = .refused .discipline) ∧ exec .ingest s = .refused .discipline ∧
      exec .rbReset s = .refused .discipline) ∧
    (s.main.op = some .d6 ∨ s.main.op = some .d7 → s.level ≠ .dlg →
      exec .rbPop s = .refused .discipline ∧ exec .rbReset s = .refused .discipline)

/-! ### The Ingest Path (44_ingest_path.md, 60_exceptions.md) -/

/-- 44 R167: what a frame on the bus does to the peripheral, in every state and at every recorded level as BUS's turn, and
issued as an operation outside the dialog (at the levels R82 does not give it by log 25). -/
def Obligations.BusRxQueuesOrLosesTheFrame : Prop :=
  ∀ (s : State) (f : Frame),
    opOf (encode (.busRx f)) = 0xE ∧ frameOf (encode (.busRx f)) = f ∧
    (accept s.cfg 0 0 f = true) ∧
    ∃ p : Peripheral,
      (s.per.running = false → p = s.per) ∧
      (rateOk s.cfg s.per.prescaler s.per.timeSeg1 s.per.timeSeg2 = false → p = s.per) ∧
      (accept s.cfg s.per.filterId s.per.maskId f = false → p = s.per) ∧
      (s.per.running = true → rateOk s.cfg s.per.prescaler s.per.timeSeg1 s.per.timeSeg2 = true →
        accept s.cfg s.per.filterId s.per.maskId f = true →
          (s.per.rxq.length < s.cfg.hwqDepth → p = { s.per with rxq := s.per.rxq ++ [f] }) ∧
          (s.cfg.hwqDepth ≤ s.per.rxq.length → p = { s.per with lost := true })) ∧
      (s.level ≠ .dlg → exec (.busRx f) s = .next { s with per := p }) ∧
      (∀ r, s.sched = .bus f :: r → f.wf → step s = .next { s with sched := r, per := p })

/-- The platform's turn begins an invocation exactly when `irq` is true and none is in progress (60 R221, 10 R40); MAIN and
every other element stay as they are (60 R224). The model's choice: the turn is the step i0 itself (log 23). -/
def Obligations.InvocationEntrySavesNothing : Prop :=
  ∀ (s : State) (r : List Turn), s.sched = .irq :: r →
    (s.per.rxie = true ∧ s.per.rxq ≠ [] ∧ s.ing.active = false →
      step s = .next { s with sched := r, ing := { s.ing with active := true, pos := .i1 } }) ∧
    (¬(s.per.rxie = true ∧ s.per.rxq ≠ [] ∧ s.ing.active = false) → step s = .next { s with sched := r })

/-- 60 R225: the return restores nothing; frames left enable another invocation at once. -/
def Obligations.InvocationReturnRestoresNothing : Prop :=
  ∀ (s : State) (r : List Turn), s.sched = .cpu :: r → s.ing.active = true → s.ing.pos = .i6 →
    ∃ t, step s = .next t ∧ t = { s with sched := r, ing := { s.ing with active := false, pos := .i0 } } ∧
      (s.per.rxie = true → s.per.rxq ≠ [] → ingestEnabled t = true)

/-- 44 R175: the frame of an ingest step; MAIN takes no step meanwhile; INGEST is not re-entrant and waits for
nothing. That a direct INGEST during an invocation is refused, rather than without effect, is log 13 (DEDUCED). -/
def Obligations.IngestStepsTouchNothingElse : Prop :=
  (∀ (s t : State) (r : List Turn), s.sched = .cpu :: r → s.ing.active = true → step s = .next t →
    t = { s with
      sched := r
      ing := t.ing
      ovf := t.ovf
      rb := { slots := t.rb.slots, head := t.rb.head, tail := s.rb.tail }
      per := { s.per with rxq := t.per.rxq, lost := t.per.lost } } ∧
    (∀ j, j ≠ s.rb.head → t.rb.slots.read j = s.rb.slots.read j) ∧
    (t.per.rxq = s.per.rxq ∨ ∃ f, s.per.rxq = f :: t.per.rxq) ∧ (t.per.lost = true → s.per.lost = true) ∧
    (s.ovf.hardwareLoss = true → t.ovf.hardwareLoss = true) ∧
    (s.ovf.softwareLoss = true → t.ovf.softwareLoss = true)) ∧
  (∀ (s : State) (r : List Turn), BlockInv s → s.sched = .cpu :: r → s.ing.active = true → ∃ t, step s = .next t) ∧
  (∀ (s : State) (r : List Turn), s.sched = .irq :: r → s.ing.active = true → step s = .next { s with sched := r }) ∧
  (∀ s : State, s.ing.active = true → s.level ≠ .dlg → exec .ingest s = .refused .discipline)

/-- 44 R170: the lost-message test, made once per invocation and before any frame is drained. -/
def Obligations.LostMessageTestIsMadeOnce : Prop :=
  (∀ s : State, s.ing.pos = .i1 →
    (s.per.lost = true →
      isrStep s = .next { s with
        ovf := { s.ovf with hardwareLoss := true }, per := { s.per with lost := false }
        ing := { s.ing with pos := .i2 } }) ∧
    (s.per.lost = false → isrStep s = .next { s with ing := { s.ing with pos := .i2 } })) ∧
  (∀ s t : State, s.ing.pos ≠ .i1 → isrStep s = .next t →
    t.ing.pos ≠ .i1 ∨ s.ing.pos = .i0) ∧
  (∀ s t : State, s.ing.pos ≠ .i1 → isrStep s = .next t →
    t.ovf.hardwareLoss = s.ovf.hardwareLoss ∧ t.per.lost = s.per.lost)

/-- 44 R169 to R173: with no arrival meanwhile an invocation (i0 in the step of the word, then three listed turns a frame
and four more) takes the oldest DRAIN_BOUND frames of the hardware queue, stores them in order as far as the ring has room,
and drops the rest with the flag set; the slots stored to are those from head on. INGEST at prim, ext and env, which R82
does not give it, is log 25 (DESIGN CHOICE); the direct API call is R176. -/
def Obligations.IngestDrainsTheHardwareQueue : Prop :=
  ∀ (s : State) (taken : List Frame) (r : List Turn), BlockInv s → s.ing.active = false → s.level ≠ .dlg →
    taken = s.per.rxq.take s.cfg.drainBound → s.sched = List.replicate (3 * taken.length + 4) .cpu ++ r →
    ∃ t, exec .ingest s = .next t ∧
      t = { s with
        sched := r
        rb := { slots := t.rb.slots, head := t.rb.head, tail := s.rb.tail }
        ovf := t.ovf
        per := { s.per with rxq := s.per.rxq.drop s.cfg.drainBound, lost := false }
        ing := t.ing } ∧
      t.ing.active = false ∧ t.ing.n = taken.length ∧
      ringHeld t = (ringHeld s ++ taken.map some).take (s.cfg.n - 1) ∧
      (∀ j, (∀ k, k < taken.length → occupancy s + k < s.cfg.n - 1 → j ≠ reduceIndex s.cfg (s.rb.head + k)) →
        t.rb.slots.read j = s.rb.slots.read j) ∧
      t.ovf.hardwareLoss = (s.ovf.hardwareLoss || s.per.lost) ∧
      t.ovf.softwareLoss = (s.ovf.softwareLoss || decide (s.cfg.n - 1 < occupancy s + taken.length))

/-- 44 R173: whatever BUS does between its steps, an invocation returns after at most DRAIN_BOUND removals, within three
turns of the processor a removal and four more, and leaves MAIN, the consumer's index, `st` and `out` alone. INGEST at prim,
ext and env, which R82 does not give it, is log 25 (DESIGN CHOICE); the direct API call is R176. -/
def Obligations.IngestReturnsWhateverBusDoes : Prop :=
  ∀ (s : State) (p r : List Turn), BlockInv s → s.sched = p ++ r → (∀ u ∈ p, loopTurn u) →
    3 * s.cfg.drainBound + 4 ≤ cpuTurns p → s.ing.active = false → s.level ≠ .dlg →
    ∃ t, exec .ingest s = .next t ∧ t.ing.active = false ∧ t.ing.n ≤ s.cfg.drainBound ∧
      t.main = s.main ∧ t.rb.tail = s.rb.tail ∧ t.st = s.st ∧ t.out = s.out ∧
      t.per.running = s.per.running ∧ t.per.rxie = s.per.rxie ∧
      (s.ovf.hardwareLoss = true → t.ovf.hardwareLoss = true) ∧
      (s.ovf.softwareLoss = true → t.ovf.softwareLoss = true)

/-! ### The Forwarder (45_forwarder.md) -/

/-- 45 R184, R185: each flag is read once, then, in a second step, cleared and reported only if the value read was true. -/
def Obligations.DrainReadsThenClearsEachFlag : Prop :=
  ∀ s : State,
    labelStep .d1 s = .next { s with main := { s.main with fwH := s.ovf.hardwareLoss, op := some .d2 } } ∧
    (s.main.fwH = true →
      labelStep .d2 s = .next { s with
        ovf := { s.ovf with hardwareLoss := false }, out := s.out ++ [.diag .hwLoss]
        main := { s.main with op := some .d3 } }) ∧
    (s.main.fwH = false → labelStep .d2 s = .next { s with main := { s.main with op := some .d3 } }) ∧
    labelStep .d3 s = .next { s with main := { s.main with fwS := s.ovf.softwareLoss, op := some .d4 } } ∧
    (s.main.fwS = true →
      labelStep .d4 s = .next { s with
        ovf := { s.ovf with softwareLoss := false }, out := s.out ++ [.diag .swLoss]
        main := { s.main with op := some .d5 } }) ∧
    (s.main.fwS = false → labelStep .d4 s = .next { s with main := { s.main with op := some .d5 } })

/-- 45 R186: one turn of the pop loop: both indices read, the slot copied, then released, then the copy forwarded. -/
def Obligations.DrainCopiesReleasesThenForwards : Prop :=
  ∀ s : State,
    (s.rb.head = s.rb.tail →
      labelStep .d5 s = .next { s with
        main := { s.main with fwT := s.rb.tail, fwHd := s.rb.head, op := none, caller := .direct } }) ∧
    (s.rb.head ≠ s.rb.tail →
      labelStep .d5 s = .next { s with
        main := { s.main with fwT := s.rb.tail, fwHd := s.rb.head, op := some .d6 } }) ∧
    (∀ f, s.main.fwT < s.cfg.n → s.rb.slots.read s.main.fwT = some f →
      labelStep .d6 s = .next { s with main := { s.main with fwF := f, op := some .d7 } }) ∧
    labelStep .d7 s = .next { s with
      rb := { s.rb with tail := (s.main.fwT + 1) &&& (s.cfg.n - 1) }, main := { s.main with op := some .d8 } } ∧
    labelStep .d8 s = .next { s with out := s.out ++ [.frame s.main.fwF], main := { s.main with op := some .d5 } }

/-- 45 R183, R190: with no arrival meanwhile DRAIN emits one diagnostic per flag set, hardware first, then every frame the
ring held, oldest first; it leaves both flags clear and the ring empty, and changes nothing else but its own locals. Which
levels are MAIN's is log 13 (DEDUCED), and level prim, which R82 does not give DRAIN, is log 25 (DESIGN CHOICE). -/
def Obligations.DrainReportsThenForwardsAll : Prop :=
  ∀ (s : State) (r : List Turn), BlockInv s → s.sched = List.replicate (4 * occupancy s + 4) .cpu ++ r →
    mainBusy s = false → s.level = .api ∨ s.level = .prim →
    ∃ fs : List Frame, ringHeld s = fs.map some ∧
      exec .drain s = .next { s with
        sched := r
        ovf := ⟨false, false⟩
        out := s.out ++ (if s.ovf.hardwareLoss then [.diag .hwLoss] else []) ++
          (if s.ovf.softwareLoss then [.diag .swLoss] else []) ++ fs.map .frame
        rb := { s.rb with tail := s.rb.head }
        main := { s.main with
          op := none, caller := .direct, fwH := s.ovf.hardwareLoss, fwS := s.ovf.softwareLoss
          fwT := s.rb.head, fwHd := s.rb.head, fwF := fs.getLastD s.main.fwF } }

/-- 45 R190: a premise bounding arrivals makes DRAIN return. In the listed turns each interrupt turn lets one invocation
run, which takes at most `3 DRAIN_BOUND + 4` turns of the processor and stores at most DRAIN_BOUND frames of four MAIN steps
each; with that many turns of the processor listed DRAIN returns, whatever order the turns stand in. Without the premise
nothing is assumed (log 2): with no turn listed DRAIN has taken its first step and is in progress. Which levels are MAIN's
is log 13 (DEDUCED), and level prim, which R82 does not give DRAIN, is log 25 (DESIGN CHOICE). -/
def Obligations.DrainCompletesUnderEveryListedSchedule : Prop :=
  (∀ (s : State) (p r : List Turn), BlockInv s → s.sched = p ++ r → (∀ u ∈ p, loopTurn u) →
    4 * occupancy s + 4 + (7 * s.cfg.drainBound + 4) * irqTurns p ≤ cpuTurns p →
    mainBusy s = false → s.level = .api ∨ s.level = .prim →
    ∃ t, exec .drain s = .next t ∧ t.rb.head = t.rb.tail ∧ t.main.op = none ∧ t.main.pos = s.main.pos ∧
      t.ing.active = false ∧ t.st = s.st ∧ t.per.running = s.per.running ∧ t.per.rxie = s.per.rxie ∧
      (∃ l, t.out = s.out ++ l)) ∧
  (∀ s : State, s.sched = [] → mainBusy s = false → s.level = .api ∨ s.level = .prim →
    exec .drain s = .next { s with
      main := { s.main with op := some .d2, caller := .direct, fwH := s.ovf.hardwareLoss } })

/-! ### The Operating State Machine (46_operating_state_machine.md) -/

/-- 46 R201: QUIT from a stopped peripheral: Capturing exactly if START returned true, the interrupt enabled before the mode
is written; else the failure is reported and the mode stays. That the write of `mode` is a step of its own, labelled q1, the
fourth listed turn, and that START_FAIL is emitted in the very step t1, is log 14 (DEDUCED). -/
def Obligations.QuitEntersCapturingIffConfigured : Prop :=
  (∀ s : State, mainBusy s = false → s.level = .dlg → s.per.running = false →
    (∀ r, s.st.configured = true → s.sched = List.replicate 4 .cpu ++ r →
      exec .quit s = .next { s with
        sched := r
        per := { s.per with
          filterId := s.st.filterId, maskId := s.st.maskId, running := true, rxie := true }
        ret := .bool true
        mode := .capturing
        main := { s.main with pos := .m0, op := none, caller := .direct } }) ∧
    (s.st.configured = false →
      exec .quit s = .next { s with
        ret := .bool false
        out := s.out ++ [.startFail]
        main := { s.main with pos := .m2, op := none, caller := .direct } })) ∧
  (∀ s : State, s.main.caller = .quit →
    labelStep .t4 s = .next { s with
      per := { s.per with rxie := true }, ret := .bool true, main := { s.main with op := some .q1 } } ∧
    labelStep .q1 s = .next { s with
      mode := .capturing, main := { s.main with pos := .m0, op := none, caller := .direct } })

/-- 46 R200: QUIT exists only at the dialog; that it is refused at irq, ext, prim and env, and not at the API level only, is
log 25 (DESIGN CHOICE). -/
def Obligations.QuitOutsideTheDialogIsRefused : Prop :=
  (∀ c : PortWord, opOf c = 0x8 → decode c = .ok .quit) ∧
  ∀ s : State, s.level ≠ .dlg → exec .quit s = .refused .quitOutsideDialog

/-! ### The numbered registers -/

/-- 10_state.md R45: what each of the eighteen numbers reads, one field each, and that no other number is a register. -/
def Obligations.NumberedRegistersReadTheirFields : Prop :=
  ∀ s : State,
    readReg 0 s = some (.bits 1 (if s.st.configured = true then 1 else 0)) ∧
    readReg 1 s = some (.bits 32 s.st.bitrate.toNat) ∧
    readReg 2 s = some (.bits 16 s.st.filterId.toNat) ∧
    readReg 3 s = some (.bits 16 s.st.maskId.toNat) ∧
    readReg 4 s = some (.bits s.cfg.k s.rb.head) ∧
    readReg 5 s = some (.bits s.cfg.k s.rb.tail) ∧
    readReg 6 s = some (.bits 1 (if s.ovf.hardwareLoss = true then 1 else 0)) ∧
    readReg 7 s = some (.bits 1 (if s.ovf.softwareLoss = true then 1 else 0)) ∧
    readReg 8 s = some (.bits 1 (if s.mode = .capturing then 1 else 0)) ∧
    readReg 9 s = some (.bits 16 s.per.prescaler.toNat) ∧
    readReg 10 s = some (.bits 8 s.per.timeSeg1.toNat) ∧
    readReg 11 s = some (.bits 8 s.per.timeSeg2.toNat) ∧
    readReg 12 s = some (.bits 16 s.per.filterId.toNat) ∧
    readReg 13 s = some (.bits 16 s.per.maskId.toNat) ∧
    readReg 14 s = some (.bits 1 (if s.per.running = true then 1 else 0)) ∧
    readReg 15 s = some (.bits 1 (if s.per.rxie = true then 1 else 0)) ∧
    readReg 16 s = some (.bits 1 (if s.per.lost = true then 1 else 0)) ∧
    readReg 17 s = some (.fifo s.per.rxq) ∧
    (∀ n, 18 ≤ n → readReg n s = none)
end

