-- ==== Sys2Proof/Laws/Memory.lean ====
section
/-! SUPPORT. RING: a read after a write, and that a write keeps the canonical form. -/

namespace Sys2Proof.Machine

@[simp] theorem Memory.read_nil (i : Nat) : Memory.read [] i = none := rfl

theorem Memory.read_cons (j : Nat) (g : Frame) (r : Memory) (i : Nat) :
    Memory.read ((j, g) :: r) i = if i = j then some g else Memory.read r i := rfl

@[simp] theorem Memory.risesAbove_nil (lo : Option Nat) : Memory.risesAbove lo [] = true := rfl

theorem Memory.risesAbove_some_cons (l j : Nat) (g : Frame) (r : Memory) :
    Memory.risesAbove (some l) ((j, g) :: r) = (decide (l < j) && Memory.risesAbove (some j) r) := rfl

theorem Memory.risesAbove_none_cons (j : Nat) (g : Frame) (r : Memory) :
    Memory.risesAbove none ((j, g) :: r) = Memory.risesAbove (some j) r := by
  simp [Memory.risesAbove]

/-- Below the first listed slot nothing is listed. -/
theorem Memory.read_below {m : Memory} {l i : Nat} (h : m.risesAbove (some l) = true) (hi : i ≤ l) :
    m.read i = none := by
  induction m generalizing l with
  | nil => rfl
  | cons c r ih =>
    obtain ⟨j, g⟩ := c
    simp only [risesAbove_some_cons, Bool.and_eq_true, decide_eq_true_eq] at h
    rw [read_cons, if_neg (by omega), ih h.2 (by omega)]

/-- A read of the slot just written gives the Frame written. -/
@[simp] theorem Memory.read_write_same (m : Memory) (i : Nat) (f : Frame) : (m.write i f).read i = some f := by
  induction m with
  | nil => simp [write, read_cons]
  | cons c r ih =>
    obtain ⟨j, g⟩ := c
    simp only [write]
    split
    · simp [read_cons]
    · split
      · simp [read_cons]
      · rename_i h1 h2
        rw [read_cons, if_neg h2, ih]

/-- A write leaves every other slot alone. -/
theorem Memory.read_write_other (m : Memory) {i k : Nat} (f : Frame) (h : k ≠ i) : (m.write i f).read k = m.read k := by
  induction m with
  | nil => simp [write, read_cons, h]
  | cons c r ih =>
    obtain ⟨j, g⟩ := c
    simp only [write]
    split
    · rw [read_cons, if_neg h]
    · split
      · rename_i h1 h2
        subst h2
        rw [read_cons, read_cons, if_neg h, if_neg h]
      · rw [read_cons, read_cons, ih]

theorem Memory.risesAbove_write {m : Memory} {lo : Option Nat} {i : Nat} {f : Frame} (h : m.risesAbove lo = true)
    (hi : ∀ l, lo = some l → l < i) : (m.write i f).risesAbove lo = true := by
  induction m generalizing lo with
  | nil => cases lo <;> simp_all [write, risesAbove]
  | cons c r ih =>
    obtain ⟨j, g⟩ := c
    have hr : Memory.risesAbove (some j) r = true := by
      cases lo <;> simp_all [risesAbove]
    simp only [write]
    split
    · cases lo <;> simp_all [risesAbove]
    · split
      · subst_vars
        cases lo <;> simp_all [risesAbove]
      · have := ih hr (lo := some j) (by intro l hl; cases hl; omega)
        cases lo <;> simp_all [risesAbove]

theorem Memory.all_write {m : Memory} {n i : Nat} {f : Frame} (h : ∀ c ∈ m, c.1 < n) (hi : i < n) :
    ∀ c ∈ m.write i f, c.1 < n := by
  induction m with
  | nil => simpa [write] using hi
  | cons c r ih =>
    have hr := ih (fun c hc => h c (List.mem_cons_of_mem _ hc))
    have hc := h c (List.mem_cons_self ..)
    obtain ⟨j, g⟩ := c
    simp only [write]
    split
    · exact List.forall_mem_cons.2 ⟨hi, h⟩
    · split
      · exact List.forall_mem_cons.2 ⟨hi, fun c hc => h c (List.mem_cons_of_mem _ hc)⟩
      · exact List.forall_mem_cons.2 ⟨hc, hr⟩

/-- A write inside RING keeps the canonical form. -/
theorem Memory.wf_write {m : Memory} {n i : Nat} {f : Frame} (h : m.wf n = true) (hi : i < n) :
    (m.write i f).wf n = true := by
  simp only [wf, Bool.and_eq_true, List.all_eq_true, decide_eq_true_eq] at h ⊢
  exact ⟨risesAbove_write h.1 (by simp), all_write h.2 hi⟩

/-- Nothing is listed outside a RING in canonical form. -/
theorem Memory.read_outside {m : Memory} {n i : Nat} (h : m.wf n = true) (hi : n ≤ i) : m.read i = none := by
  simp only [wf, Bool.and_eq_true] at h
  have h2 := h.2
  clear h
  induction m with
  | nil => rfl
  | cons c r ih =>
    obtain ⟨j, g⟩ := c
    simp only [List.all_cons, Bool.and_eq_true, decide_eq_true_eq] at h2
    rw [read_cons, if_neg (by omega), ih h2.2]

/-- RING at power-on is in canonical form. -/
theorem Memory.wf_reset : Memory.wf State.reset.cfg.n State.reset.rb.slots = true := rfl

end Sys2Proof.Machine
end

