-- ==== Sys2Proof/Laws/State.lean ====
section
/-! SUPPORT. One lemma per field per update of State, each true by rfl, and the composed updates in terms of these. -/

namespace Sys2Proof.Machine

variable (s : State)

@[simp] theorem setHardwareLoss_cfg : (setHardwareLoss s).cfg = s.cfg := rfl
@[simp] theorem setHardwareLoss_st : (setHardwareLoss s).st = s.st := rfl
@[simp] theorem setHardwareLoss_rb : (setHardwareLoss s).rb = s.rb := rfl
@[simp] theorem setHardwareLoss_ovf : (setHardwareLoss s).ovf = { s.ovf with hardwareLoss := true } := rfl
@[simp] theorem setHardwareLoss_mode : (setHardwareLoss s).mode = s.mode := rfl
@[simp] theorem setHardwareLoss_per : (setHardwareLoss s).per = s.per := rfl
@[simp] theorem setHardwareLoss_main : (setHardwareLoss s).main = s.main := rfl
@[simp] theorem setHardwareLoss_ing : (setHardwareLoss s).ing = s.ing := rfl
@[simp] theorem setHardwareLoss_out : (setHardwareLoss s).out = s.out := rfl
@[simp] theorem setHardwareLoss_ret : (setHardwareLoss s).ret = s.ret := rfl
@[simp] theorem setHardwareLoss_level : (setHardwareLoss s).level = s.level := rfl
@[simp] theorem setHardwareLoss_userq : (setHardwareLoss s).userq = s.userq := rfl
@[simp] theorem setHardwareLoss_calls : (setHardwareLoss s).calls = s.calls := rfl
@[simp] theorem setHardwareLoss_sched : (setHardwareLoss s).sched = s.sched := rfl
@[simp] theorem setHardwareLoss_drawn : (setHardwareLoss s).drawn = s.drawn := rfl

@[simp] theorem setSoftwareLoss_cfg : (setSoftwareLoss s).cfg = s.cfg := rfl
@[simp] theorem setSoftwareLoss_st : (setSoftwareLoss s).st = s.st := rfl
@[simp] theorem setSoftwareLoss_rb : (setSoftwareLoss s).rb = s.rb := rfl
@[simp] theorem setSoftwareLoss_ovf : (setSoftwareLoss s).ovf = { s.ovf with softwareLoss := true } := rfl
@[simp] theorem setSoftwareLoss_mode : (setSoftwareLoss s).mode = s.mode := rfl
@[simp] theorem setSoftwareLoss_per : (setSoftwareLoss s).per = s.per := rfl
@[simp] theorem setSoftwareLoss_main : (setSoftwareLoss s).main = s.main := rfl
@[simp] theorem setSoftwareLoss_ing : (setSoftwareLoss s).ing = s.ing := rfl
@[simp] theorem setSoftwareLoss_out : (setSoftwareLoss s).out = s.out := rfl
@[simp] theorem setSoftwareLoss_ret : (setSoftwareLoss s).ret = s.ret := rfl
@[simp] theorem setSoftwareLoss_level : (setSoftwareLoss s).level = s.level := rfl
@[simp] theorem setSoftwareLoss_userq : (setSoftwareLoss s).userq = s.userq := rfl
@[simp] theorem setSoftwareLoss_calls : (setSoftwareLoss s).calls = s.calls := rfl
@[simp] theorem setSoftwareLoss_sched : (setSoftwareLoss s).sched = s.sched := rfl
@[simp] theorem setSoftwareLoss_drawn : (setSoftwareLoss s).drawn = s.drawn := rfl

@[simp] theorem clearHardwareLoss_cfg : (clearHardwareLoss s).cfg = s.cfg := rfl
@[simp] theorem clearHardwareLoss_st : (clearHardwareLoss s).st = s.st := rfl
@[simp] theorem clearHardwareLoss_rb : (clearHardwareLoss s).rb = s.rb := rfl
@[simp] theorem clearHardwareLoss_ovf : (clearHardwareLoss s).ovf = { s.ovf with hardwareLoss := false } := rfl
@[simp] theorem clearHardwareLoss_mode : (clearHardwareLoss s).mode = s.mode := rfl
@[simp] theorem clearHardwareLoss_per : (clearHardwareLoss s).per = s.per := rfl
@[simp] theorem clearHardwareLoss_main : (clearHardwareLoss s).main = s.main := rfl
@[simp] theorem clearHardwareLoss_ing : (clearHardwareLoss s).ing = s.ing := rfl
@[simp] theorem clearHardwareLoss_out : (clearHardwareLoss s).out = s.out := rfl
@[simp] theorem clearHardwareLoss_ret : (clearHardwareLoss s).ret = s.ret := rfl
@[simp] theorem clearHardwareLoss_level : (clearHardwareLoss s).level = s.level := rfl
@[simp] theorem clearHardwareLoss_userq : (clearHardwareLoss s).userq = s.userq := rfl
@[simp] theorem clearHardwareLoss_calls : (clearHardwareLoss s).calls = s.calls := rfl
@[simp] theorem clearHardwareLoss_sched : (clearHardwareLoss s).sched = s.sched := rfl
@[simp] theorem clearHardwareLoss_drawn : (clearHardwareLoss s).drawn = s.drawn := rfl

@[simp] theorem clearSoftwareLoss_cfg : (clearSoftwareLoss s).cfg = s.cfg := rfl
@[simp] theorem clearSoftwareLoss_st : (clearSoftwareLoss s).st = s.st := rfl
@[simp] theorem clearSoftwareLoss_rb : (clearSoftwareLoss s).rb = s.rb := rfl
@[simp] theorem clearSoftwareLoss_ovf : (clearSoftwareLoss s).ovf = { s.ovf with softwareLoss := false } := rfl
@[simp] theorem clearSoftwareLoss_mode : (clearSoftwareLoss s).mode = s.mode := rfl
@[simp] theorem clearSoftwareLoss_per : (clearSoftwareLoss s).per = s.per := rfl
@[simp] theorem clearSoftwareLoss_main : (clearSoftwareLoss s).main = s.main := rfl
@[simp] theorem clearSoftwareLoss_ing : (clearSoftwareLoss s).ing = s.ing := rfl
@[simp] theorem clearSoftwareLoss_out : (clearSoftwareLoss s).out = s.out := rfl
@[simp] theorem clearSoftwareLoss_ret : (clearSoftwareLoss s).ret = s.ret := rfl
@[simp] theorem clearSoftwareLoss_level : (clearSoftwareLoss s).level = s.level := rfl
@[simp] theorem clearSoftwareLoss_userq : (clearSoftwareLoss s).userq = s.userq := rfl
@[simp] theorem clearSoftwareLoss_calls : (clearSoftwareLoss s).calls = s.calls := rfl
@[simp] theorem clearSoftwareLoss_sched : (clearSoftwareLoss s).sched = s.sched := rfl
@[simp] theorem clearSoftwareLoss_drawn : (clearSoftwareLoss s).drawn = s.drawn := rfl

@[simp] theorem unconfigure_cfg : (unconfigure s).cfg = s.cfg := rfl
@[simp] theorem unconfigure_st : (unconfigure s).st = { s.st with configured := false, bitrate := 0 } := rfl
@[simp] theorem unconfigure_rb : (unconfigure s).rb = s.rb := rfl
@[simp] theorem unconfigure_ovf : (unconfigure s).ovf = s.ovf := rfl
@[simp] theorem unconfigure_mode : (unconfigure s).mode = s.mode := rfl
@[simp] theorem unconfigure_per : (unconfigure s).per = s.per := rfl
@[simp] theorem unconfigure_main : (unconfigure s).main = s.main := rfl
@[simp] theorem unconfigure_ing : (unconfigure s).ing = s.ing := rfl
@[simp] theorem unconfigure_out : (unconfigure s).out = s.out := rfl
@[simp] theorem unconfigure_ret : (unconfigure s).ret = s.ret := rfl
@[simp] theorem unconfigure_level : (unconfigure s).level = s.level := rfl
@[simp] theorem unconfigure_userq : (unconfigure s).userq = s.userq := rfl
@[simp] theorem unconfigure_calls : (unconfigure s).calls = s.calls := rfl
@[simp] theorem unconfigure_sched : (unconfigure s).sched = s.sched := rfl
@[simp] theorem unconfigure_drawn : (unconfigure s).drawn = s.drawn := rfl

@[simp] theorem configure_cfg (b : U32) : (configure b s).cfg = s.cfg := rfl
@[simp] theorem configure_st (b : U32) : (configure b s).st = { s.st with configured := true, bitrate := b } := rfl
@[simp] theorem configure_rb (b : U32) : (configure b s).rb = s.rb := rfl
@[simp] theorem configure_ovf (b : U32) : (configure b s).ovf = s.ovf := rfl
@[simp] theorem configure_mode (b : U32) : (configure b s).mode = s.mode := rfl
@[simp] theorem configure_per (b : U32) : (configure b s).per = s.per := rfl
@[simp] theorem configure_main (b : U32) : (configure b s).main = s.main := rfl
@[simp] theorem configure_ing (b : U32) : (configure b s).ing = s.ing := rfl
@[simp] theorem configure_out (b : U32) : (configure b s).out = s.out := rfl
@[simp] theorem configure_ret (b : U32) : (configure b s).ret = s.ret := rfl
@[simp] theorem configure_level (b : U32) : (configure b s).level = s.level := rfl
@[simp] theorem configure_userq (b : U32) : (configure b s).userq = s.userq := rfl
@[simp] theorem configure_calls (b : U32) : (configure b s).calls = s.calls := rfl
@[simp] theorem configure_sched (b : U32) : (configure b s).sched = s.sched := rfl
@[simp] theorem configure_drawn (b : U32) : (configure b s).drawn = s.drawn := rfl

@[simp] theorem storeFilter_cfg (f m : U16) : (storeFilter f m s).cfg = s.cfg := rfl
@[simp] theorem storeFilter_st (f m : U16) : (storeFilter f m s).st = { s.st with filterId := f, maskId := m } := rfl
@[simp] theorem storeFilter_rb (f m : U16) : (storeFilter f m s).rb = s.rb := rfl
@[simp] theorem storeFilter_ovf (f m : U16) : (storeFilter f m s).ovf = s.ovf := rfl
@[simp] theorem storeFilter_mode (f m : U16) : (storeFilter f m s).mode = s.mode := rfl
@[simp] theorem storeFilter_per (f m : U16) : (storeFilter f m s).per = s.per := rfl
@[simp] theorem storeFilter_main (f m : U16) : (storeFilter f m s).main = s.main := rfl
@[simp] theorem storeFilter_ing (f m : U16) : (storeFilter f m s).ing = s.ing := rfl
@[simp] theorem storeFilter_out (f m : U16) : (storeFilter f m s).out = s.out := rfl
@[simp] theorem storeFilter_ret (f m : U16) : (storeFilter f m s).ret = s.ret := rfl
@[simp] theorem storeFilter_level (f m : U16) : (storeFilter f m s).level = s.level := rfl
@[simp] theorem storeFilter_userq (f m : U16) : (storeFilter f m s).userq = s.userq := rfl
@[simp] theorem storeFilter_calls (f m : U16) : (storeFilter f m s).calls = s.calls := rfl
@[simp] theorem storeFilter_sched (f m : U16) : (storeFilter f m s).sched = s.sched := rfl
@[simp] theorem storeFilter_drawn (f m : U16) : (storeFilter f m s).drawn = s.drawn := rfl

@[simp] theorem emit_cfg (e : Event) : (emit e s).cfg = s.cfg := rfl
@[simp] theorem emit_st (e : Event) : (emit e s).st = s.st := rfl
@[simp] theorem emit_rb (e : Event) : (emit e s).rb = s.rb := rfl
@[simp] theorem emit_ovf (e : Event) : (emit e s).ovf = s.ovf := rfl
@[simp] theorem emit_mode (e : Event) : (emit e s).mode = s.mode := rfl
@[simp] theorem emit_per (e : Event) : (emit e s).per = s.per := rfl
@[simp] theorem emit_main (e : Event) : (emit e s).main = s.main := rfl
@[simp] theorem emit_ing (e : Event) : (emit e s).ing = s.ing := rfl
@[simp] theorem emit_out (e : Event) : (emit e s).out = s.out ++ [e] := rfl
@[simp] theorem emit_ret (e : Event) : (emit e s).ret = s.ret := rfl
@[simp] theorem emit_level (e : Event) : (emit e s).level = s.level := rfl
@[simp] theorem emit_userq (e : Event) : (emit e s).userq = s.userq := rfl
@[simp] theorem emit_calls (e : Event) : (emit e s).calls = s.calls := rfl
@[simp] theorem emit_sched (e : Event) : (emit e s).sched = s.sched := rfl
@[simp] theorem emit_drawn (e : Event) : (emit e s).drawn = s.drawn := rfl

@[simp] theorem returns_cfg (r : Result) : (returns r s).cfg = s.cfg := rfl
@[simp] theorem returns_st (r : Result) : (returns r s).st = s.st := rfl
@[simp] theorem returns_rb (r : Result) : (returns r s).rb = s.rb := rfl
@[simp] theorem returns_ovf (r : Result) : (returns r s).ovf = s.ovf := rfl
@[simp] theorem returns_mode (r : Result) : (returns r s).mode = s.mode := rfl
@[simp] theorem returns_per (r : Result) : (returns r s).per = s.per := rfl
@[simp] theorem returns_main (r : Result) : (returns r s).main = s.main := rfl
@[simp] theorem returns_ing (r : Result) : (returns r s).ing = s.ing := rfl
@[simp] theorem returns_out (r : Result) : (returns r s).out = s.out := rfl
@[simp] theorem returns_ret (r : Result) : (returns r s).ret = r := rfl
@[simp] theorem returns_level (r : Result) : (returns r s).level = s.level := rfl
@[simp] theorem returns_userq (r : Result) : (returns r s).userq = s.userq := rfl
@[simp] theorem returns_calls (r : Result) : (returns r s).calls = s.calls := rfl
@[simp] theorem returns_sched (r : Result) : (returns r s).sched = s.sched := rfl
@[simp] theorem returns_drawn (r : Result) : (returns r s).drawn = s.drawn := rfl

@[simp] theorem goto_cfg (l : Label) : (goto l s).cfg = s.cfg := rfl
@[simp] theorem goto_st (l : Label) : (goto l s).st = s.st := rfl
@[simp] theorem goto_rb (l : Label) : (goto l s).rb = s.rb := rfl
@[simp] theorem goto_ovf (l : Label) : (goto l s).ovf = s.ovf := rfl
@[simp] theorem goto_mode (l : Label) : (goto l s).mode = s.mode := rfl
@[simp] theorem goto_per (l : Label) : (goto l s).per = s.per := rfl
@[simp] theorem goto_main (l : Label) : (goto l s).main = { s.main with op := some l } := rfl
@[simp] theorem goto_ing (l : Label) : (goto l s).ing = s.ing := rfl
@[simp] theorem goto_out (l : Label) : (goto l s).out = s.out := rfl
@[simp] theorem goto_ret (l : Label) : (goto l s).ret = s.ret := rfl
@[simp] theorem goto_level (l : Label) : (goto l s).level = s.level := rfl
@[simp] theorem goto_userq (l : Label) : (goto l s).userq = s.userq := rfl
@[simp] theorem goto_calls (l : Label) : (goto l s).calls = s.calls := rfl
@[simp] theorem goto_sched (l : Label) : (goto l s).sched = s.sched := rfl
@[simp] theorem goto_drawn (l : Label) : (goto l s).drawn = s.drawn := rfl

@[simp] theorem opReturn_cfg : (opReturn s).cfg = s.cfg := rfl
@[simp] theorem opReturn_st : (opReturn s).st = s.st := rfl
@[simp] theorem opReturn_rb : (opReturn s).rb = s.rb := rfl
@[simp] theorem opReturn_ovf : (opReturn s).ovf = s.ovf := rfl
@[simp] theorem opReturn_mode : (opReturn s).mode = s.mode := rfl
@[simp] theorem opReturn_per : (opReturn s).per = s.per := rfl
@[simp] theorem opReturn_main : (opReturn s).main = { s.main with op := none, caller := .direct } := rfl
@[simp] theorem opReturn_ing : (opReturn s).ing = s.ing := rfl
@[simp] theorem opReturn_out : (opReturn s).out = s.out := rfl
@[simp] theorem opReturn_ret : (opReturn s).ret = s.ret := rfl
@[simp] theorem opReturn_level : (opReturn s).level = s.level := rfl
@[simp] theorem opReturn_userq : (opReturn s).userq = s.userq := rfl
@[simp] theorem opReturn_calls : (opReturn s).calls = s.calls := rfl
@[simp] theorem opReturn_sched : (opReturn s).sched = s.sched := rfl
@[simp] theorem opReturn_drawn : (opReturn s).drawn = s.drawn := rfl

@[simp] theorem setPos_cfg (p : MainPos) : (setPos p s).cfg = s.cfg := rfl
@[simp] theorem setPos_st (p : MainPos) : (setPos p s).st = s.st := rfl
@[simp] theorem setPos_rb (p : MainPos) : (setPos p s).rb = s.rb := rfl
@[simp] theorem setPos_ovf (p : MainPos) : (setPos p s).ovf = s.ovf := rfl
@[simp] theorem setPos_mode (p : MainPos) : (setPos p s).mode = s.mode := rfl
@[simp] theorem setPos_per (p : MainPos) : (setPos p s).per = s.per := rfl
@[simp] theorem setPos_main (p : MainPos) : (setPos p s).main = { s.main with pos := p } := rfl
@[simp] theorem setPos_ing (p : MainPos) : (setPos p s).ing = s.ing := rfl
@[simp] theorem setPos_out (p : MainPos) : (setPos p s).out = s.out := rfl
@[simp] theorem setPos_ret (p : MainPos) : (setPos p s).ret = s.ret := rfl
@[simp] theorem setPos_level (p : MainPos) : (setPos p s).level = s.level := rfl
@[simp] theorem setPos_userq (p : MainPos) : (setPos p s).userq = s.userq := rfl
@[simp] theorem setPos_calls (p : MainPos) : (setPos p s).calls = s.calls := rfl
@[simp] theorem setPos_sched (p : MainPos) : (setPos p s).sched = s.sched := rfl
@[simp] theorem setPos_drawn (p : MainPos) : (setPos p s).drawn = s.drawn := rfl

@[simp] theorem setIdx_cfg (i : Nat) : (setIdx i s).cfg = s.cfg := rfl
@[simp] theorem setIdx_st (i : Nat) : (setIdx i s).st = s.st := rfl
@[simp] theorem setIdx_rb (i : Nat) : (setIdx i s).rb = s.rb := rfl
@[simp] theorem setIdx_ovf (i : Nat) : (setIdx i s).ovf = s.ovf := rfl
@[simp] theorem setIdx_mode (i : Nat) : (setIdx i s).mode = s.mode := rfl
@[simp] theorem setIdx_per (i : Nat) : (setIdx i s).per = s.per := rfl
@[simp] theorem setIdx_main (i : Nat) : (setIdx i s).main = { s.main with adIdx := i } := rfl
@[simp] theorem setIdx_ing (i : Nat) : (setIdx i s).ing = s.ing := rfl
@[simp] theorem setIdx_out (i : Nat) : (setIdx i s).out = s.out := rfl
@[simp] theorem setIdx_ret (i : Nat) : (setIdx i s).ret = s.ret := rfl
@[simp] theorem setIdx_level (i : Nat) : (setIdx i s).level = s.level := rfl
@[simp] theorem setIdx_userq (i : Nat) : (setIdx i s).userq = s.userq := rfl
@[simp] theorem setIdx_calls (i : Nat) : (setIdx i s).calls = s.calls := rfl
@[simp] theorem setIdx_sched (i : Nat) : (setIdx i s).sched = s.sched := rfl
@[simp] theorem setIdx_drawn (i : Nat) : (setIdx i s).drawn = s.drawn := rfl

@[simp] theorem takeIndices_cfg : (takeIndices s).cfg = s.cfg := rfl
@[simp] theorem takeIndices_st : (takeIndices s).st = s.st := rfl
@[simp] theorem takeIndices_rb : (takeIndices s).rb = s.rb := rfl
@[simp] theorem takeIndices_ovf : (takeIndices s).ovf = s.ovf := rfl
@[simp] theorem takeIndices_mode : (takeIndices s).mode = s.mode := rfl
@[simp] theorem takeIndices_per : (takeIndices s).per = s.per := rfl
@[simp] theorem takeIndices_main : (takeIndices s).main = { s.main with fwT := s.rb.tail, fwHd := s.rb.head } := rfl
@[simp] theorem takeIndices_ing : (takeIndices s).ing = s.ing := rfl
@[simp] theorem takeIndices_out : (takeIndices s).out = s.out := rfl
@[simp] theorem takeIndices_ret : (takeIndices s).ret = s.ret := rfl
@[simp] theorem takeIndices_level : (takeIndices s).level = s.level := rfl
@[simp] theorem takeIndices_userq : (takeIndices s).userq = s.userq := rfl
@[simp] theorem takeIndices_calls : (takeIndices s).calls = s.calls := rfl
@[simp] theorem takeIndices_sched : (takeIndices s).sched = s.sched := rfl
@[simp] theorem takeIndices_drawn : (takeIndices s).drawn = s.drawn := rfl

@[simp] theorem calledBy_cfg (who : Caller) : (calledBy who s).cfg = s.cfg := rfl
@[simp] theorem calledBy_st (who : Caller) : (calledBy who s).st = s.st := rfl
@[simp] theorem calledBy_rb (who : Caller) : (calledBy who s).rb = s.rb := rfl
@[simp] theorem calledBy_ovf (who : Caller) : (calledBy who s).ovf = s.ovf := rfl
@[simp] theorem calledBy_mode (who : Caller) : (calledBy who s).mode = s.mode := rfl
@[simp] theorem calledBy_per (who : Caller) : (calledBy who s).per = s.per := rfl
@[simp] theorem calledBy_main (who : Caller) : (calledBy who s).main = { s.main with caller := who } := rfl
@[simp] theorem calledBy_ing (who : Caller) : (calledBy who s).ing = s.ing := rfl
@[simp] theorem calledBy_out (who : Caller) : (calledBy who s).out = s.out := rfl
@[simp] theorem calledBy_ret (who : Caller) : (calledBy who s).ret = s.ret := rfl
@[simp] theorem calledBy_level (who : Caller) : (calledBy who s).level = s.level := rfl
@[simp] theorem calledBy_userq (who : Caller) : (calledBy who s).userq = s.userq := rfl
@[simp] theorem calledBy_calls (who : Caller) : (calledBy who s).calls = s.calls := rfl
@[simp] theorem calledBy_sched (who : Caller) : (calledBy who s).sched = s.sched := rfl
@[simp] theorem calledBy_drawn (who : Caller) : (calledBy who s).drawn = s.drawn := rfl

@[simp] theorem perSetTiming_cfg (e : BitTimingEntry) : (perSetTiming e s).cfg = s.cfg := rfl
@[simp] theorem perSetTiming_st (e : BitTimingEntry) : (perSetTiming e s).st = s.st := rfl
@[simp] theorem perSetTiming_rb (e : BitTimingEntry) : (perSetTiming e s).rb = s.rb := rfl
@[simp] theorem perSetTiming_ovf (e : BitTimingEntry) : (perSetTiming e s).ovf = s.ovf := rfl
@[simp] theorem perSetTiming_mode (e : BitTimingEntry) : (perSetTiming e s).mode = s.mode := rfl
@[simp] theorem perSetTiming_per (e : BitTimingEntry) : (perSetTiming e s).per = { s.per with prescaler := e.prescaler, timeSeg1 := e.timeSeg1, timeSeg2 := e.timeSeg2 } := rfl
@[simp] theorem perSetTiming_main (e : BitTimingEntry) : (perSetTiming e s).main = s.main := rfl
@[simp] theorem perSetTiming_ing (e : BitTimingEntry) : (perSetTiming e s).ing = s.ing := rfl
@[simp] theorem perSetTiming_out (e : BitTimingEntry) : (perSetTiming e s).out = s.out := rfl
@[simp] theorem perSetTiming_ret (e : BitTimingEntry) : (perSetTiming e s).ret = s.ret := rfl
@[simp] theorem perSetTiming_level (e : BitTimingEntry) : (perSetTiming e s).level = s.level := rfl
@[simp] theorem perSetTiming_userq (e : BitTimingEntry) : (perSetTiming e s).userq = s.userq := rfl
@[simp] theorem perSetTiming_calls (e : BitTimingEntry) : (perSetTiming e s).calls = s.calls := rfl
@[simp] theorem perSetTiming_sched (e : BitTimingEntry) : (perSetTiming e s).sched = s.sched := rfl
@[simp] theorem perSetTiming_drawn (e : BitTimingEntry) : (perSetTiming e s).drawn = s.drawn := rfl

@[simp] theorem perSetFilter_cfg (f m : U16) : (perSetFilter f m s).cfg = s.cfg := rfl
@[simp] theorem perSetFilter_st (f m : U16) : (perSetFilter f m s).st = s.st := rfl
@[simp] theorem perSetFilter_rb (f m : U16) : (perSetFilter f m s).rb = s.rb := rfl
@[simp] theorem perSetFilter_ovf (f m : U16) : (perSetFilter f m s).ovf = s.ovf := rfl
@[simp] theorem perSetFilter_mode (f m : U16) : (perSetFilter f m s).mode = s.mode := rfl
@[simp] theorem perSetFilter_per (f m : U16) : (perSetFilter f m s).per = { s.per with filterId := f, maskId := m } := rfl
@[simp] theorem perSetFilter_main (f m : U16) : (perSetFilter f m s).main = s.main := rfl
@[simp] theorem perSetFilter_ing (f m : U16) : (perSetFilter f m s).ing = s.ing := rfl
@[simp] theorem perSetFilter_out (f m : U16) : (perSetFilter f m s).out = s.out := rfl
@[simp] theorem perSetFilter_ret (f m : U16) : (perSetFilter f m s).ret = s.ret := rfl
@[simp] theorem perSetFilter_level (f m : U16) : (perSetFilter f m s).level = s.level := rfl
@[simp] theorem perSetFilter_userq (f m : U16) : (perSetFilter f m s).userq = s.userq := rfl
@[simp] theorem perSetFilter_calls (f m : U16) : (perSetFilter f m s).calls = s.calls := rfl
@[simp] theorem perSetFilter_sched (f m : U16) : (perSetFilter f m s).sched = s.sched := rfl
@[simp] theorem perSetFilter_drawn (f m : U16) : (perSetFilter f m s).drawn = s.drawn := rfl

@[simp] theorem perStart_cfg : (perStart s).cfg = s.cfg := rfl
@[simp] theorem perStart_st : (perStart s).st = s.st := rfl
@[simp] theorem perStart_rb : (perStart s).rb = s.rb := rfl
@[simp] theorem perStart_ovf : (perStart s).ovf = s.ovf := rfl
@[simp] theorem perStart_mode : (perStart s).mode = s.mode := rfl
@[simp] theorem perStart_per : (perStart s).per = { s.per with running := true } := rfl
@[simp] theorem perStart_main : (perStart s).main = s.main := rfl
@[simp] theorem perStart_ing : (perStart s).ing = s.ing := rfl
@[simp] theorem perStart_out : (perStart s).out = s.out := rfl
@[simp] theorem perStart_ret : (perStart s).ret = s.ret := rfl
@[simp] theorem perStart_level : (perStart s).level = s.level := rfl
@[simp] theorem perStart_userq : (perStart s).userq = s.userq := rfl
@[simp] theorem perStart_calls : (perStart s).calls = s.calls := rfl
@[simp] theorem perStart_sched : (perStart s).sched = s.sched := rfl
@[simp] theorem perStart_drawn : (perStart s).drawn = s.drawn := rfl

@[simp] theorem perIrqEnable_cfg : (perIrqEnable s).cfg = s.cfg := rfl
@[simp] theorem perIrqEnable_st : (perIrqEnable s).st = s.st := rfl
@[simp] theorem perIrqEnable_rb : (perIrqEnable s).rb = s.rb := rfl
@[simp] theorem perIrqEnable_ovf : (perIrqEnable s).ovf = s.ovf := rfl
@[simp] theorem perIrqEnable_mode : (perIrqEnable s).mode = s.mode := rfl
@[simp] theorem perIrqEnable_per : (perIrqEnable s).per = { s.per with rxie := true } := rfl
@[simp] theorem perIrqEnable_main : (perIrqEnable s).main = s.main := rfl
@[simp] theorem perIrqEnable_ing : (perIrqEnable s).ing = s.ing := rfl
@[simp] theorem perIrqEnable_out : (perIrqEnable s).out = s.out := rfl
@[simp] theorem perIrqEnable_ret : (perIrqEnable s).ret = s.ret := rfl
@[simp] theorem perIrqEnable_level : (perIrqEnable s).level = s.level := rfl
@[simp] theorem perIrqEnable_userq : (perIrqEnable s).userq = s.userq := rfl
@[simp] theorem perIrqEnable_calls : (perIrqEnable s).calls = s.calls := rfl
@[simp] theorem perIrqEnable_sched : (perIrqEnable s).sched = s.sched := rfl
@[simp] theorem perIrqEnable_drawn : (perIrqEnable s).drawn = s.drawn := rfl

@[simp] theorem perIrqDisable_cfg : (perIrqDisable s).cfg = s.cfg := rfl
@[simp] theorem perIrqDisable_st : (perIrqDisable s).st = s.st := rfl
@[simp] theorem perIrqDisable_rb : (perIrqDisable s).rb = s.rb := rfl
@[simp] theorem perIrqDisable_ovf : (perIrqDisable s).ovf = s.ovf := rfl
@[simp] theorem perIrqDisable_mode : (perIrqDisable s).mode = s.mode := rfl
@[simp] theorem perIrqDisable_per : (perIrqDisable s).per = { s.per with rxie := false } := rfl
@[simp] theorem perIrqDisable_main : (perIrqDisable s).main = s.main := rfl
@[simp] theorem perIrqDisable_ing : (perIrqDisable s).ing = s.ing := rfl
@[simp] theorem perIrqDisable_out : (perIrqDisable s).out = s.out := rfl
@[simp] theorem perIrqDisable_ret : (perIrqDisable s).ret = s.ret := rfl
@[simp] theorem perIrqDisable_level : (perIrqDisable s).level = s.level := rfl
@[simp] theorem perIrqDisable_userq : (perIrqDisable s).userq = s.userq := rfl
@[simp] theorem perIrqDisable_calls : (perIrqDisable s).calls = s.calls := rfl
@[simp] theorem perIrqDisable_sched : (perIrqDisable s).sched = s.sched := rfl
@[simp] theorem perIrqDisable_drawn : (perIrqDisable s).drawn = s.drawn := rfl

@[simp] theorem perLostClear_cfg : (perLostClear s).cfg = s.cfg := rfl
@[simp] theorem perLostClear_st : (perLostClear s).st = s.st := rfl
@[simp] theorem perLostClear_rb : (perLostClear s).rb = s.rb := rfl
@[simp] theorem perLostClear_ovf : (perLostClear s).ovf = s.ovf := rfl
@[simp] theorem perLostClear_mode : (perLostClear s).mode = s.mode := rfl
@[simp] theorem perLostClear_per : (perLostClear s).per = { s.per with lost := false } := rfl
@[simp] theorem perLostClear_main : (perLostClear s).main = s.main := rfl
@[simp] theorem perLostClear_ing : (perLostClear s).ing = s.ing := rfl
@[simp] theorem perLostClear_out : (perLostClear s).out = s.out := rfl
@[simp] theorem perLostClear_ret : (perLostClear s).ret = s.ret := rfl
@[simp] theorem perLostClear_level : (perLostClear s).level = s.level := rfl
@[simp] theorem perLostClear_userq : (perLostClear s).userq = s.userq := rfl
@[simp] theorem perLostClear_calls : (perLostClear s).calls = s.calls := rfl
@[simp] theorem perLostClear_sched : (perLostClear s).sched = s.sched := rfl
@[simp] theorem perLostClear_drawn : (perLostClear s).drawn = s.drawn := rfl

@[simp] theorem perStop_cfg : (perStop s).cfg = s.cfg := rfl
@[simp] theorem perStop_st : (perStop s).st = s.st := rfl
@[simp] theorem perStop_rb : (perStop s).rb = s.rb := rfl
@[simp] theorem perStop_ovf : (perStop s).ovf = s.ovf := rfl
@[simp] theorem perStop_mode : (perStop s).mode = s.mode := rfl
@[simp] theorem perStop_per : (perStop s).per = { s.per with running := false, rxq := if stopFlushes s then [] else s.per.rxq, lost := if stopFlushes s then false else s.per.lost } := rfl
@[simp] theorem perStop_main : (perStop s).main = s.main := rfl
@[simp] theorem perStop_ing : (perStop s).ing = s.ing := rfl
@[simp] theorem perStop_out : (perStop s).out = s.out := rfl
@[simp] theorem perStop_ret : (perStop s).ret = s.ret := rfl
@[simp] theorem perStop_level : (perStop s).level = s.level := rfl
@[simp] theorem perStop_userq : (perStop s).userq = s.userq := rfl
@[simp] theorem perStop_calls : (perStop s).calls = s.calls := rfl
@[simp] theorem perStop_sched : (perStop s).sched = s.sched := rfl
@[simp] theorem perStop_drawn : (perStop s).drawn = if s.cfg.onStop = .any then s.drawn + 1 else s.drawn := rfl

@[simp] theorem enterIngest_cfg : (enterIngest s).cfg = s.cfg := rfl
@[simp] theorem enterIngest_st : (enterIngest s).st = s.st := rfl
@[simp] theorem enterIngest_rb : (enterIngest s).rb = s.rb := rfl
@[simp] theorem enterIngest_ovf : (enterIngest s).ovf = s.ovf := rfl
@[simp] theorem enterIngest_mode : (enterIngest s).mode = s.mode := rfl
@[simp] theorem enterIngest_per : (enterIngest s).per = s.per := rfl
@[simp] theorem enterIngest_main : (enterIngest s).main = s.main := rfl
@[simp] theorem enterIngest_ing : (enterIngest s).ing = { s.ing with active := true, pos := .i1 } := rfl
@[simp] theorem enterIngest_out : (enterIngest s).out = s.out := rfl
@[simp] theorem enterIngest_ret : (enterIngest s).ret = s.ret := rfl
@[simp] theorem enterIngest_level : (enterIngest s).level = s.level := rfl
@[simp] theorem enterIngest_userq : (enterIngest s).userq = s.userq := rfl
@[simp] theorem enterIngest_calls : (enterIngest s).calls = s.calls := rfl
@[simp] theorem enterIngest_sched : (enterIngest s).sched = s.sched := rfl
@[simp] theorem enterIngest_drawn : (enterIngest s).drawn = s.drawn := rfl

@[simp] theorem leaveIngest_cfg : (leaveIngest s).cfg = s.cfg := rfl
@[simp] theorem leaveIngest_st : (leaveIngest s).st = s.st := rfl
@[simp] theorem leaveIngest_rb : (leaveIngest s).rb = s.rb := rfl
@[simp] theorem leaveIngest_ovf : (leaveIngest s).ovf = s.ovf := rfl
@[simp] theorem leaveIngest_mode : (leaveIngest s).mode = s.mode := rfl
@[simp] theorem leaveIngest_per : (leaveIngest s).per = s.per := rfl
@[simp] theorem leaveIngest_main : (leaveIngest s).main = s.main := rfl
@[simp] theorem leaveIngest_ing : (leaveIngest s).ing = { s.ing with active := false, pos := .i0 } := rfl
@[simp] theorem leaveIngest_out : (leaveIngest s).out = s.out := rfl
@[simp] theorem leaveIngest_ret : (leaveIngest s).ret = s.ret := rfl
@[simp] theorem leaveIngest_level : (leaveIngest s).level = s.level := rfl
@[simp] theorem leaveIngest_userq : (leaveIngest s).userq = s.userq := rfl
@[simp] theorem leaveIngest_calls : (leaveIngest s).calls = s.calls := rfl
@[simp] theorem leaveIngest_sched : (leaveIngest s).sched = s.sched := rfl
@[simp] theorem leaveIngest_drawn : (leaveIngest s).drawn = s.drawn := rfl

@[simp] theorem setIngPos_cfg (p : IngPos) : (setIngPos p s).cfg = s.cfg := rfl
@[simp] theorem setIngPos_st (p : IngPos) : (setIngPos p s).st = s.st := rfl
@[simp] theorem setIngPos_rb (p : IngPos) : (setIngPos p s).rb = s.rb := rfl
@[simp] theorem setIngPos_ovf (p : IngPos) : (setIngPos p s).ovf = s.ovf := rfl
@[simp] theorem setIngPos_mode (p : IngPos) : (setIngPos p s).mode = s.mode := rfl
@[simp] theorem setIngPos_per (p : IngPos) : (setIngPos p s).per = s.per := rfl
@[simp] theorem setIngPos_main (p : IngPos) : (setIngPos p s).main = s.main := rfl
@[simp] theorem setIngPos_ing (p : IngPos) : (setIngPos p s).ing = { s.ing with pos := p } := rfl
@[simp] theorem setIngPos_out (p : IngPos) : (setIngPos p s).out = s.out := rfl
@[simp] theorem setIngPos_ret (p : IngPos) : (setIngPos p s).ret = s.ret := rfl
@[simp] theorem setIngPos_level (p : IngPos) : (setIngPos p s).level = s.level := rfl
@[simp] theorem setIngPos_userq (p : IngPos) : (setIngPos p s).userq = s.userq := rfl
@[simp] theorem setIngPos_calls (p : IngPos) : (setIngPos p s).calls = s.calls := rfl
@[simp] theorem setIngPos_sched (p : IngPos) : (setIngPos p s).sched = s.sched := rfl
@[simp] theorem setIngPos_drawn (p : IngPos) : (setIngPos p s).drawn = s.drawn := rfl

@[simp] theorem setHead_cfg (i : Nat) : (setHead i s).cfg = s.cfg := rfl
@[simp] theorem setHead_st (i : Nat) : (setHead i s).st = s.st := rfl
@[simp] theorem setHead_rb (i : Nat) : (setHead i s).rb = { s.rb with head := i } := rfl
@[simp] theorem setHead_ovf (i : Nat) : (setHead i s).ovf = s.ovf := rfl
@[simp] theorem setHead_mode (i : Nat) : (setHead i s).mode = s.mode := rfl
@[simp] theorem setHead_per (i : Nat) : (setHead i s).per = s.per := rfl
@[simp] theorem setHead_main (i : Nat) : (setHead i s).main = s.main := rfl
@[simp] theorem setHead_ing (i : Nat) : (setHead i s).ing = s.ing := rfl
@[simp] theorem setHead_out (i : Nat) : (setHead i s).out = s.out := rfl
@[simp] theorem setHead_ret (i : Nat) : (setHead i s).ret = s.ret := rfl
@[simp] theorem setHead_level (i : Nat) : (setHead i s).level = s.level := rfl
@[simp] theorem setHead_userq (i : Nat) : (setHead i s).userq = s.userq := rfl
@[simp] theorem setHead_calls (i : Nat) : (setHead i s).calls = s.calls := rfl
@[simp] theorem setHead_sched (i : Nat) : (setHead i s).sched = s.sched := rfl
@[simp] theorem setHead_drawn (i : Nat) : (setHead i s).drawn = s.drawn := rfl

@[simp] theorem setTail_cfg (i : Nat) : (setTail i s).cfg = s.cfg := rfl
@[simp] theorem setTail_st (i : Nat) : (setTail i s).st = s.st := rfl
@[simp] theorem setTail_rb (i : Nat) : (setTail i s).rb = { s.rb with tail := i } := rfl
@[simp] theorem setTail_ovf (i : Nat) : (setTail i s).ovf = s.ovf := rfl
@[simp] theorem setTail_mode (i : Nat) : (setTail i s).mode = s.mode := rfl
@[simp] theorem setTail_per (i : Nat) : (setTail i s).per = s.per := rfl
@[simp] theorem setTail_main (i : Nat) : (setTail i s).main = s.main := rfl
@[simp] theorem setTail_ing (i : Nat) : (setTail i s).ing = s.ing := rfl
@[simp] theorem setTail_out (i : Nat) : (setTail i s).out = s.out := rfl
@[simp] theorem setTail_ret (i : Nat) : (setTail i s).ret = s.ret := rfl
@[simp] theorem setTail_level (i : Nat) : (setTail i s).level = s.level := rfl
@[simp] theorem setTail_userq (i : Nat) : (setTail i s).userq = s.userq := rfl
@[simp] theorem setTail_calls (i : Nat) : (setTail i s).calls = s.calls := rfl
@[simp] theorem setTail_sched (i : Nat) : (setTail i s).sched = s.sched := rfl
@[simp] theorem setTail_drawn (i : Nat) : (setTail i s).drawn = s.drawn := rfl

@[simp] theorem extRequest_cfg : (extRequest s).cfg = s.cfg := rfl
@[simp] theorem extRequest_st : (extRequest s).st = s.st := rfl
@[simp] theorem extRequest_rb : (extRequest s).rb = s.rb := rfl
@[simp] theorem extRequest_ovf : (extRequest s).ovf = s.ovf := rfl
@[simp] theorem extRequest_mode : (extRequest s).mode = .configuring := rfl
@[simp] theorem extRequest_per : (extRequest s).per = s.per := rfl
@[simp] theorem extRequest_main : (extRequest s).main = s.main := rfl
@[simp] theorem extRequest_ing : (extRequest s).ing = s.ing := rfl
@[simp] theorem extRequest_out : (extRequest s).out = s.out := rfl
@[simp] theorem extRequest_ret : (extRequest s).ret = s.ret := rfl
@[simp] theorem extRequest_level : (extRequest s).level = s.level := rfl
@[simp] theorem extRequest_userq : (extRequest s).userq = s.userq := rfl
@[simp] theorem extRequest_calls : (extRequest s).calls = s.calls := rfl
@[simp] theorem extRequest_sched : (extRequest s).sched = s.sched := rfl
@[simp] theorem extRequest_drawn : (extRequest s).drawn = s.drawn := rfl

@[simp] theorem userSends_cfg (c : PortWord) : (userSends c s).cfg = s.cfg := rfl
@[simp] theorem userSends_st (c : PortWord) : (userSends c s).st = s.st := rfl
@[simp] theorem userSends_rb (c : PortWord) : (userSends c s).rb = s.rb := rfl
@[simp] theorem userSends_ovf (c : PortWord) : (userSends c s).ovf = s.ovf := rfl
@[simp] theorem userSends_mode (c : PortWord) : (userSends c s).mode = s.mode := rfl
@[simp] theorem userSends_per (c : PortWord) : (userSends c s).per = s.per := rfl
@[simp] theorem userSends_main (c : PortWord) : (userSends c s).main = s.main := rfl
@[simp] theorem userSends_ing (c : PortWord) : (userSends c s).ing = s.ing := rfl
@[simp] theorem userSends_out (c : PortWord) : (userSends c s).out = s.out := rfl
@[simp] theorem userSends_ret (c : PortWord) : (userSends c s).ret = s.ret := rfl
@[simp] theorem userSends_level (c : PortWord) : (userSends c s).level = s.level := rfl
@[simp] theorem userSends_userq (c : PortWord) : (userSends c s).userq = s.userq ++ [c] := rfl
@[simp] theorem userSends_calls (c : PortWord) : (userSends c s).calls = s.calls := rfl
@[simp] theorem userSends_sched (c : PortWord) : (userSends c s).sched = s.sched := rfl
@[simp] theorem userSends_drawn (c : PortWord) : (userSends c s).drawn = s.drawn := rfl

@[simp] theorem returnStatus_eq : returnStatus s = returns (.status s.st) s := rfl
@[simp] theorem menu_eq : menu s = setPos .m2 (emit .menu s) := rfl
@[simp] theorem quitFails_eq : quitFails s = setPos .m2 (emit .startFail s) := rfl
@[simp] theorem ringReset_eq : ringReset s = setTail 0 (setHead 0 s) := rfl
@[simp] theorem raise_configurationNotFound : raise .configurationNotFound s = unconfigure s := rfl
@[simp] theorem raise_noActivityDetected : raise .noActivityDetected s = unconfigure s := rfl
@[simp] theorem raise_hardwareQueueOverflow : raise .hardwareQueueOverflow s = setHardwareLoss s := rfl
@[simp] theorem raise_softwareBufferOverflow : raise .softwareBufferOverflow s = setSoftwareLoss s := rfl
@[simp] theorem raise_startWithoutConfiguration :
    raise .startWithoutConfiguration s = returns (.bool false) s := rfl
@[simp] theorem andThen_next (k : State → Res) : andThen (.next s) k = k s := rfl
@[simp] theorem andThen_fault (e : Fault) (k : State → Res) : andThen (.fault e) k = .fault e := rfl
@[simp] theorem andThen_refused (e : Refusal) (k : State → Res) : andThen (.refused e) k = .refused e := rfl

end Sys2Proof.Machine
end

