-- ==== Sys2Proof/Laws/Ring.lean ====
section
/-! SUPPORT. Index arithmetic of the ring and what a push and a pop can do. -/

namespace Sys2Proof.Machine

theorem Params.n_pos (p : Config.Params) : 0 < p.n := Nat.two_pow_pos p.k

/-- `v & (N-1)` is `v mod N` (30_encoding.md R84). -/
theorem reduceIndex_eq_mod (p : Config.Params) (v : Nat) : reduceIndex p v = v % p.n := by
  simp only [reduceIndex, Config.Params.n]
  exact Nat.and_two_pow_sub_one_eq_mod v p.k

theorem reduceIndex_lt (p : Config.Params) (v : Nat) : reduceIndex p v < p.n := by
  rw [reduceIndex_eq_mod]; exact Nat.mod_lt _ (Params.n_pos p)

theorem nextHead_lt (s : State) : nextHead s < s.cfg.n := reduceIndex_lt _ _

/-- The next head slot, without the mask (43_ring_buffer.md R158). -/
theorem nextHead_eq {s : State} (h : s.rb.head < s.cfg.n) :
    nextHead s = if s.rb.head + 1 = s.cfg.n then 0 else s.rb.head + 1 := by
  rw [nextHead, reduceIndex_eq_mod]
  split
  · simp_all
  · exact Nat.mod_eq_of_lt (by omega)

theorem ringFull_iff (s : State) : ringFull s = true ↔ nextHead s = s.rb.tail := by simp [ringFull]

theorem ringEmpty_iff (s : State) : ringEmpty s = true ↔ s.rb.head = s.rb.tail := by simp [ringEmpty]

/-- `OCC` without the modulus (10_state.md R26). -/
theorem occupancy_eq {s : State} (hh : s.rb.head < s.cfg.n) (ht : s.rb.tail < s.cfg.n) :
    occupancy s = if s.rb.tail ≤ s.rb.head then s.rb.head - s.rb.tail else s.rb.head + s.cfg.n - s.rb.tail := by
  rw [occupancy]
  split
  · rw [show s.rb.head + s.cfg.n - s.rb.tail = (s.rb.head - s.rb.tail) + s.cfg.n by omega, Nat.add_mod_right,
      Nat.mod_eq_of_lt (by omega)]
  · exact Nat.mod_eq_of_lt (by omega)

theorem occupancy_of_le {s : State} (hh : s.rb.head < s.cfg.n) (h : s.rb.tail ≤ s.rb.head) :
    occupancy s = s.rb.head - s.rb.tail := by
  rw [occupancy_eq hh (by omega), if_pos h]

theorem occupancy_of_lt {s : State} (ht : s.rb.tail < s.cfg.n) (h : s.rb.head < s.rb.tail) :
    occupancy s = s.rb.head + s.cfg.n - s.rb.tail := by
  rw [occupancy_eq (by omega) ht, if_neg (by omega)]

/-- What a push can do: report a full ring, or store at head and publish, or stop on a head outside RING. -/
theorem ringPush_cases {f : Frame} {s : State} {r : Res} (h : ringPush f s = r) :
    (ringFull s = true ∧ r = .next (setSoftwareLoss s)) ∨
    (ringFull s = false ∧ s.rb.head < s.cfg.n ∧
      r = .next { s with rb := ⟨s.rb.slots.write s.rb.head f, nextHead s, s.rb.tail⟩ }) ∨
    (ringFull s = false ∧ s.cfg.n ≤ s.rb.head ∧ r = .fault .slotOutsideRing) := by
  subst h
  simp only [ringPush]
  split
  · exact .inl ⟨‹_›, rfl⟩
  · rename_i hf
    simp only [Bool.not_eq_true] at hf
    simp only [memWrite]
    split
    · exact .inr (.inl ⟨hf, ‹_›, rfl⟩)
    · exact .inr (.inr ⟨hf, by omega, rfl⟩)

/-- What a pop can do: answer none, or copy out and release the slot, or stop on a slot that cannot be read. -/
theorem ringPop_cases {s : State} {r : Res} (h : ringPop s = r) :
    (ringEmpty s = true ∧ r = .next (returns (.frame none) s)) ∨
    (∃ f, ringEmpty s = false ∧ s.rb.tail < s.cfg.n ∧ s.rb.slots.read s.rb.tail = some f ∧
      r = .next (returns (.frame (some f)) (setTail (reduceIndex s.cfg (s.rb.tail + 1)) s))) ∨
    (ringEmpty s = false ∧ s.rb.tail < s.cfg.n ∧ s.rb.slots.read s.rb.tail = none ∧ r = .fault .slotNeverWritten) ∨
    (ringEmpty s = false ∧ s.cfg.n ≤ s.rb.tail ∧ r = .fault .slotOutsideRing) := by
  subst h
  simp only [ringPop]
  split
  · exact .inl ⟨‹_›, rfl⟩
  · rename_i he
    simp only [Bool.not_eq_true] at he
    simp only [memRead]
    split
    · rename_i ht
      split
      · exact .inr (.inl ⟨_, he, ht, ‹_›, rfl⟩)
      · exact .inr (.inr (.inl ⟨he, ht, ‹_›, rfl⟩))
    · exact .inr (.inr (.inr ⟨he, by omega, rfl⟩))

/-- What a frame arrival can do (44_ingest_path.md R167). -/
theorem busArrives_cases (f : Frame) (s : State) :
    busArrives f s = s ∨
    (s.per.running = true ∧ s.per.rxq.length < s.cfg.hwqDepth ∧
      busArrives f s = { s with per := { s.per with rxq := s.per.rxq ++ [f] } }) ∨
    (s.per.running = true ∧ s.cfg.hwqDepth ≤ s.per.rxq.length ∧
      busArrives f s = { s with per := { s.per with lost := true } }) := by
  simp only [busArrives]
  split
  · exact .inl rfl
  · rename_i hr
    simp only [Bool.not_eq_false] at hr
    split
    · exact .inl rfl
    · split
      · exact .inl rfl
      · split
        · exact .inr (.inl ⟨hr, ‹_›, rfl⟩)
        · exact .inr (.inr ⟨hr, by omega, rfl⟩)

end Sys2Proof.Machine
end

