-- ==== Sys2Proof/Laws/Held.lean ====
section
/-! SUPPORT. The list of frames the ring holds, under a push, a pop and a reset (43_ring_buffer.md R147), and what a read of RING or TABLE gives when it goes on. -/

namespace Sys2Proof.Machine

theorem memRead_next {s t : State} {i : Nat} {k : Frame → Res} (h : memRead s i k = .next t) :
    ∃ f, i < s.cfg.n ∧ s.rb.slots.read i = some f ∧ k f = .next t := by
  unfold memRead at h
  split at h
  · split at h
    · exact ⟨_, ‹_›, ‹_›, h⟩
    · cases h
  · cases h

theorem tableRead_next {s t : State} {i : Nat} {k : BitTimingEntry → Res} (h : tableRead s i k = .next t) :
    ∃ e, s.cfg.table[i]? = some e ∧ k e = .next t := by
  unfold tableRead at h
  split at h
  · exact ⟨_, ‹_›, h⟩
  · cases h

theorem length_ringHeld (s : State) : (ringHeld s).length = occupancy s := by simp [ringHeld]

theorem occupancy_lt (s : State) : occupancy s < s.cfg.n := Nat.mod_lt _ (Params.n_pos _)

/-- The occupancy after the head has moved to the next slot. -/
theorem occupancy_push {s t : State} (hh : s.rb.head < s.cfg.n) (ht : s.rb.tail < s.cfg.n) (hf : ringFull s = false)
    (h1 : t.rb.head = nextHead s) (h2 : t.rb.tail = s.rb.tail) (hc : t.cfg = s.cfg) :
    occupancy t = occupancy s + 1 := by
  have hne : nextHead s ≠ s.rb.tail := by intro h; simp [ringFull, h] at hf
  have hnl := nextHead_lt s
  have hl := nextHead_eq hh
  generalize nextHead s = m at hl hne hnl h1
  have hto : occupancy t = if s.rb.tail ≤ m then m - s.rb.tail else m + s.cfg.n - s.rb.tail := by
    rcases Nat.lt_or_ge m s.rb.tail with h | h
    · rw [occupancy_of_lt (by rw [hc, h2]; exact ht) (by omega), h1, h2, hc, if_neg (by omega)]
    · rw [occupancy_of_le (by rw [hc, h1]; exact hnl) (by omega), h1, h2, if_pos h]
  rw [hto, occupancy_eq hh ht]
  split at hl <;> split <;> split <;> omega

/-- The occupancy after the tail slot has been released. -/
theorem occupancy_pop {s t : State} (hh : s.rb.head < s.cfg.n) (ht : s.rb.tail < s.cfg.n)
    (hne : s.rb.head ≠ s.rb.tail) (h1 : t.rb.head = s.rb.head)
    (h2 : t.rb.tail = reduceIndex s.cfg (s.rb.tail + 1)) (hc : t.cfg = s.cfg) :
    occupancy t + 1 = occupancy s := by
  have hl : reduceIndex s.cfg (s.rb.tail + 1) = if s.rb.tail + 1 = s.cfg.n then 0 else s.rb.tail + 1 := by
    rw [reduceIndex_eq_mod]
    split
    · rename_i h; rw [h, Nat.mod_self]
    · exact Nat.mod_eq_of_lt (by omega)
  generalize reduceIndex s.cfg (s.rb.tail + 1) = m at hl h2
  have hm : m < s.cfg.n := by split at hl <;> omega
  rcases Nat.lt_or_ge s.rb.head m with h | h
  · rw [occupancy_of_lt (by rw [hc, h2]; exact hm) (by omega), h1, h2, hc, occupancy_eq hh ht]
    split at hl <;> split <;> omega
  · rw [occupancy_of_le (by rw [hc, h1]; exact hh) (by omega), h1, h2, occupancy_eq hh ht]
    split at hl <;> split <;> omega

/-- The slots a push makes held: those held before, none of them the head slot, and the head slot. -/
theorem held_slot_push {s t : State} {k : Nat} (hh : s.rb.head < s.cfg.n) (ht : s.rb.tail < s.cfg.n)
    (hf : ringFull s = false) (h1 : t.rb.head = nextHead s) (h2 : t.rb.tail = s.rb.tail) (hc : t.cfg = s.cfg)
    (hk : k < occupancy t) :
    k < occupancy s ∧ reduceIndex s.cfg (s.rb.tail + k) ≠ s.rb.head ∨
      k = occupancy s ∧ reduceIndex s.cfg (s.rb.tail + k) = s.rb.head := by
  have ho := occupancy_push hh ht hf h1 h2 hc
  have hlt := occupancy_lt t
  rw [hc] at hlt
  have hoe := occupancy_eq hh ht
  generalize occupancy s = o at *
  rw [reduceIndex_eq_mod]
  have hmod : (s.rb.tail + k) % s.cfg.n =
      if s.rb.tail + k < s.cfg.n then s.rb.tail + k else s.rb.tail + k - s.cfg.n := by
    split
    · exact Nat.mod_eq_of_lt ‹_›
    · rw [Nat.mod_eq_sub_mod (by omega)]
      exact Nat.mod_eq_of_lt (by omega)
  rw [hmod]
  split at hoe <;> split <;> omega

theorem ringHeld_push {s t : State} {f : Frame} (hh : s.rb.head < s.cfg.n) (ht : s.rb.tail < s.cfg.n)
    (hf : ringFull s = false) (h1 : t.rb = ⟨s.rb.slots.write s.rb.head f, nextHead s, s.rb.tail⟩) (hc : t.cfg = s.cfg) :
    ringHeld t = ringHeld s ++ [some f] := by
  have ho := occupancy_push (t := t) hh ht hf (by rw [h1]) (by rw [h1]) hc
  have hslot : ∀ k, k < occupancy t → _ :=
    fun k hk => held_slot_push (t := t) hh ht hf (by rw [h1]) (by rw [h1]) hc hk
  simp only [ringHeld, ho, List.range_succ, List.map_append, List.map_cons, List.map_nil]
  congr 1
  · apply List.map_congr_left
    intro j hj
    rw [List.mem_range] at hj
    rcases hslot j (by omega) with ⟨_, h⟩ | ⟨h, _⟩
    · rw [h1, hc, Memory.read_write_other _ _ h]
    · omega
  · rcases hslot (occupancy s) (by omega) with ⟨h, _⟩ | ⟨_, h⟩
    · omega
    · rw [h1, hc, h, Memory.read_write_same]

theorem ringHeld_pop {s t : State} {f : Frame} (hh : s.rb.head < s.cfg.n) (ht : s.rb.tail < s.cfg.n)
    (hne : s.rb.head ≠ s.rb.tail) (hr : s.rb.slots.read s.rb.tail = some f)
    (h1 : t.rb = { s.rb with tail := reduceIndex s.cfg (s.rb.tail + 1) }) (hc : t.cfg = s.cfg) :
    ringHeld s = some f :: ringHeld t := by
  have ho := occupancy_pop (t := t) hh ht hne (by rw [h1]) (by rw [h1]) hc
  simp only [ringHeld, ← ho, List.range_succ_eq_map, List.map_cons, List.map_map]
  congr 1
  · rw [Nat.add_zero, reduceIndex_eq_mod, Nat.mod_eq_of_lt ht, hr]
  · apply List.map_congr_left
    intro j _
    simp only [Function.comp, h1, hc, reduceIndex_eq_mod, Nat.mod_add_mod]
    congr 2
    omega

theorem ringHeld_reset (s : State) : ringHeld (ringReset s) = [] := by simp [ringHeld, occupancy]

theorem ringFull_iff_occupancy {s : State} (hh : s.rb.head < s.cfg.n) (ht : s.rb.tail < s.cfg.n) :
    ringFull s = true ↔ occupancy s = s.cfg.n - 1 := by
  rw [ringFull_iff, nextHead_eq hh, occupancy_eq hh ht]
  split <;> split <;> omega

theorem ringHeld_eq_nil {s : State} (hh : s.rb.head < s.cfg.n) (ht : s.rb.tail < s.cfg.n) :
    ringHeld s = [] ↔ s.rb.head = s.rb.tail := by
  rw [← List.length_eq_zero_iff, length_ringHeld, occupancy_eq hh ht]
  split <;> omega

end Sys2Proof.Machine
end

