-- ==== Sys2Proof/Laws/Words.lean ====
section
/-! SUPPORT. Fields of the words of 30_encoding.md: what a slice of a concatenation is, and the codes, operands and Frames of the two formats. -/

namespace Sys2Proof

theorem extract_append_high (a : Nat) {n m : Nat} (x : BitVec n) (y : BitVec m) (k : Nat) (h : m ≤ a) :
    (x ++ y).extractLsb' a k = x.extractLsb' (a - m) k := by
  apply BitVec.eq_of_getLsbD_eq
  intro i hi
  simp only [BitVec.getLsbD_extractLsb', BitVec.getLsbD_append, hi]
  have : ¬(a + i < m) := by omega
  simp [this, show a + i - m = a - m + i by omega]

theorem extract_append_low {n m : Nat} (x : BitVec n) (y : BitVec m) : (x ++ y).extractLsb' 0 m = y := by
  apply BitVec.eq_of_getLsbD_eq
  intro i hi
  simp [BitVec.getLsbD_append, hi]

theorem extract_whole {n : Nat} (x : BitVec n) : x.extractLsb' 0 n = x := by
  apply BitVec.eq_of_getLsbD_eq
  intro i hi
  simp [hi]

/-- Two adjacent slices, put together, are one slice. -/
theorem append_extract {w : Nat} (x : BitVec w) (a b n m : Nat) (h : a = b + m) :
    x.extractLsb' a n ++ x.extractLsb' b m = x.extractLsb' b (n + m) := by
  apply BitVec.eq_of_getLsbD_eq
  intro i hi
  simp only [BitVec.getLsbD_append, BitVec.getLsbD_extractLsb', hi]
  by_cases him : i < m
  · simp [him]
  · simp [him, show i - m < n by omega, show a + (i - m) = b + i by omega]

theorem opOf_word36 (op : BitVec 4) (arg : U32) : opOf (word36 op arg) = op := by
  apply BitVec.eq_of_getLsbD_eq
  intro i hi
  simp only [opOf, word36, BitVec.getLsbD_extractLsb', BitVec.getLsbD_setWidth, BitVec.getLsbD_append, hi]
  simp [show i < 108 by omega]
  intro h; omega

theorem argOf_word36 (op : BitVec 4) (arg : U32) : argOf (word36 op arg) = arg := by
  apply BitVec.eq_of_getLsbD_eq
  intro i hi
  simp only [argOf, word36, BitVec.getLsbD_extractLsb', BitVec.getLsbD_setWidth, BitVec.getLsbD_append, hi]
  simp [show 4 + i < 108 by omega]

theorem opOf_word108 (op : BitVec 4) (f : Frame) : opOf (word108 op f) = op := extract_append_low _ _

/-- The Frame of 30_encoding.md R77, read back from its word. -/
theorem frameOfWord_frameWord (f : Frame) : frameOfWord (frameWord f) = f := by
  obtain ⟨a, b, c, d, e, f, g, h, i, j⟩ := f
  simp only [frameOfWord, frameWord]
  congr 1
  all_goals simp only [extract_append_high, extract_append_low, extract_whole, Nat.le_refl, Nat.reduceLeDiff,
    Nat.reduceSub, Nat.sub_self]

/-- A Frame's word has no bit the Frame does not hold. -/
theorem frameWord_frameOfWord (w : BitVec 104) : frameWord (frameOfWord w) = w := by
  simp only [frameWord, frameOfWord]
  rw [append_extract w 96 88 8 8 rfl, append_extract w 88 80 _ 8 rfl, append_extract w 80 72 _ 8 rfl,
    append_extract w 72 64 _ 8 rfl, append_extract w 64 56 _ 8 rfl, append_extract w 56 48 _ 8 rfl,
    append_extract w 48 40 _ 8 rfl, append_extract w 40 32 _ 8 rfl, append_extract w 32 0 _ 32 rfl]
  exact extract_whole w

theorem frameOf_word108 (op : BitVec 4) (f : Frame) : frameOf (word108 op f) = f := by
  have h : (word108 op f).extractLsb' 4 104 = frameWord f := by
    rw [word108, extract_append_high _ _ _ _ (by omega)]
    exact extract_whole _
  rw [frameOf, h, frameOfWord_frameWord]

end Sys2Proof
end

