-- ==== Sys2Proof/Laws/PerInstr.lean ====
section
/-! SUPPORT. What holds of every operation as syntax, one lemma per constructor: its word carries its own code of the table of 30_encoding.md R82 on lines 3:0. -/

namespace Sys2Proof.Laws

/-- Lines 3:0 of the operation's word are its code (30_encoding.md R79, R80, R82). -/
def OpcodeNibble.Statement : Instr → Prop := fun i => opOf (encode i) = i.opcode

theorem OpcodeNibble.cfgManual (b : U32) : OpcodeNibble.Statement (.cfgManual b) := opOf_word36 _ _

theorem OpcodeNibble.cfgAuto (v : Bool) : OpcodeNibble.Statement (.cfgAuto v) := opOf_word36 _ _

theorem OpcodeNibble.setFm (f m : U16) : OpcodeNibble.Statement (.setFm f m) := opOf_word36 _ _

theorem OpcodeNibble.getStatus (p : Bool) : OpcodeNibble.Statement (.getStatus p) := opOf_word36 _ _

theorem OpcodeNibble.start : OpcodeNibble.Statement .start := opOf_word36 _ _

theorem OpcodeNibble.stop : OpcodeNibble.Statement .stop := opOf_word36 _ _

theorem OpcodeNibble.drain : OpcodeNibble.Statement .drain := opOf_word36 _ _

theorem OpcodeNibble.quit : OpcodeNibble.Statement .quit := opOf_word36 _ _

theorem OpcodeNibble.extReq : OpcodeNibble.Statement .extReq := opOf_word36 _ _

theorem OpcodeNibble.ingest : OpcodeNibble.Statement .ingest := opOf_word36 _ _

theorem OpcodeNibble.rbPush (f : Frame) : OpcodeNibble.Statement (.rbPush f) := opOf_word108 _ _

theorem OpcodeNibble.rbPop : OpcodeNibble.Statement .rbPop := opOf_word36 _ _

theorem OpcodeNibble.rbReset : OpcodeNibble.Statement .rbReset := opOf_word36 _ _

theorem OpcodeNibble.busRx (f : Frame) : OpcodeNibble.Statement (.busRx f) := opOf_word108 _ _

theorem OpcodeNibble.reserved0 : OpcodeNibble.Statement .reserved0 := opOf_word36 _ _

theorem OpcodeNibble.reservedF : OpcodeNibble.Statement .reservedF := opOf_word36 _ _

end Sys2Proof.Laws
end

