-- ==== Sys2Proof/Laws/Run.lean ====
section
/-! SUPPORT. An operation's run through the listed turns, its inductions packaged once. -/

namespace Sys2Proof.Machine

theorem andThen_eq_next {r : Res} {k : State → Res} {t : State} :
    andThen r k = .next t ↔ ∃ s, r = .next s ∧ k s = .next t := by
  cases r <;> simp [andThen]

theorem andThen_eq_fault {r : Res} {k : State → Res} {e : Fault} :
    andThen r k = .fault e ↔ r = .fault e ∨ ∃ s, r = .next s ∧ k s = .fault e := by
  cases r <;> simp [andThen]

theorem andThen_eq_refused {r : Res} {k : State → Res} {e : Refusal} :
    andThen r k = .refused e ↔ r = .refused e ∨ ∃ s, r = .next s ∧ k s = .refused e := by
  cases r <;> simp [andThen]

theorem carryOn_nil (busy : State → Bool) (s : State) : carryOn busy [] s = .next s := rfl

theorem carryOn_done {busy : State → Bool} {s : State} (us : List Turn) (h : busy s = false) :
    carryOn busy us s = .next s := by
  cases us <;> simp [carryOn, h]

theorem carryOn_word (busy : State → Bool) (lvl : Level) (c : PortWord) (r : List Turn) (s : State) :
    carryOn busy (.op lvl c :: r) s = .next s := by
  simp [carryOn, isWord]

theorem carryOn_cons {busy : State → Bool} {s : State} {u : Turn} (r : List Turn) (h : busy s = true)
    (hu : isWord u = false) :
    carryOn busy (u :: r) s = andThen (turnInside u { s with sched := r }) (carryOn busy r) := by
  simp [carryOn, h, hu]

/-- Why the listed turns after `r` were not taken: the operation has returned, a word follows, or the list has ended. -/
def pauses (busy : State → Bool) (r : List Turn) (s : State) : Prop :=
  busy s = false ∨ r = [] ∨ ∃ lvl c q, r = .op lvl c :: q

/-- What every turn taken keeps, of the turns still listed and the state, the whole run keeps, and where it ends. -/
theorem carryOn_keeps {busy : State → Bool} {P : List Turn → State → Prop}
    (keeps : ∀ u r s t, busy s = true → isWord u = false → P (u :: r) s →
      turnInside u { s with sched := r } = .next t → P r t) :
    ∀ (us : List Turn) (s t : State), P us s → carryOn busy us s = .next t →
      ∃ p r, us = p ++ r ∧ P r t ∧ pauses busy r t := by
  intro us
  induction us with
  | nil =>
    intro s t hp h
    simp only [carryOn_nil, Host.Outcome.next.injEq] at h
    exact ⟨[], [], rfl, h ▸ hp, .inr (.inl rfl)⟩
  | cons u r ih =>
    intro s t hp h
    cases hb : busy s with
    | false =>
      rw [carryOn_done _ hb] at h
      simp only [Host.Outcome.next.injEq] at h
      exact ⟨[], u :: r, rfl, h ▸ hp, .inl (h ▸ hb)⟩
    | true =>
      cases hu : isWord u with
      | true =>
        obtain ⟨lvl, c, rfl⟩ : ∃ lvl c, u = .op lvl c := by cases u <;> simp_all [isWord]
        rw [carryOn_word] at h
        simp only [Host.Outcome.next.injEq] at h
        exact ⟨[], _, rfl, h ▸ hp, .inr (.inr ⟨lvl, c, r, rfl⟩)⟩
      | false =>
        rw [carryOn_cons r hb hu, andThen_eq_next] at h
        obtain ⟨v, hv, hk⟩ := h
        obtain ⟨p, q, hq, hpq, hd⟩ := ih v t (keeps u r s v hb hu hp hv) hk
        exact ⟨u :: p, q, by rw [hq]; rfl, hpq, hd⟩

/-- A run whose turns never stop does not stop. -/
theorem carryOn_goes {busy : State → Bool} {P : List Turn → State → Prop}
    (goes : ∀ u r s, busy s = true → isWord u = false → P (u :: r) s →
      ∃ t, turnInside u { s with sched := r } = .next t ∧ P r t) :
    ∀ (us : List Turn) (s : State), P us s →
      ∃ t p r, carryOn busy us s = .next t ∧ us = p ++ r ∧ P r t ∧ pauses busy r t := by
  intro us
  induction us with
  | nil => exact fun s hp => ⟨s, [], [], rfl, rfl, hp, .inr (.inl rfl)⟩
  | cons u r ih =>
    intro s hp
    cases hb : busy s with
    | false => exact ⟨s, [], u :: r, carryOn_done _ hb, rfl, hp, .inl hb⟩
    | true =>
      cases hu : isWord u with
      | true =>
        obtain ⟨lvl, c, rfl⟩ : ∃ lvl c, u = .op lvl c := by cases u <;> simp_all [isWord]
        exact ⟨s, [], _, carryOn_word busy lvl c r s, rfl, hp, .inr (.inr ⟨lvl, c, r, rfl⟩)⟩
      | false =>
        obtain ⟨v, hv, hpv⟩ := goes u r s hb hu hp
        obtain ⟨t, p, q, ht, hq, hpq, hd⟩ := ih v hpv
        refine ⟨t, u :: p, q, ?_, by rw [hq]; rfl, hpq, hd⟩
        rw [carryOn_cons r hb hu, hv]
        exact ht

/-- Enough turns of the processor listed: where each of them lowers `m`, an interrupt turn raises it by at most `w` and no
other turn raises it, an operation with `m ≤ cpuTurns` returns within the listed turns. -/
theorem carryOn_returns {busy : State → Bool} {P : State → Prop} {m : State → Nat} {w : Nat}
    (pos : ∀ s, busy s = true → P s → 0 < m s)
    (goes : ∀ u r s, busy s = true → isWord u = false → loopTurn u → P s →
      ∃ t, turnInside u { s with sched := r } = .next t ∧ P t ∧
        m t + cpuTurns [u] ≤ m s + w * irqTurns [u]) :
    ∀ (p r : List Turn) (s : State), (∀ u ∈ p, loopTurn u) → P s →
      m s + w * irqTurns p ≤ cpuTurns p →
      ∃ t q, carryOn busy (p ++ r) s = .next t ∧ P t ∧ busy t = false ∧ ∃ p', p = p' ++ q := by
  intro p r
  induction p with
  | nil =>
    intro s _ hp hm
    cases hb : busy s with
    | false => exact ⟨s, [], carryOn_done _ hb, hp, hb, [], rfl⟩
    | true =>
      have := pos s hb hp
      simp [cpuTurns] at hm
      omega
  | cons u p ih =>
    intro s hw hp hm
    cases hb : busy s with
    | false => exact ⟨s, u :: p, carryOn_done _ hb, hp, hb, [], rfl⟩
    | true =>
      have hok := hw u (List.mem_cons_self ..)
      have hu : isWord u = false := by cases u <;> simp_all [loopTurn, isWord]
      obtain ⟨t, ht, hpt, hmt⟩ := goes u (p ++ r) s hb hu hok hp
      have hc : cpuTurns (u :: p) = cpuTurns [u] + cpuTurns p := by cases u <;> simp [cpuTurns]; omega
      have hi : irqTurns (u :: p) = irqTurns [u] + irqTurns p := by cases u <;> simp [irqTurns]; omega
      rw [hc, hi, Nat.mul_add] at hm
      obtain ⟨v, q, hv, hpv, hbv, p', hp'⟩ :=
        ih t (fun x hx => hw x (List.mem_cons_of_mem _ hx)) hpt (by omega)
      refine ⟨v, q, ?_, hpv, hbv, u :: p', by rw [hp']; rfl⟩
      rw [List.cons_append, carryOn_cons _ hb hu, ht]
      exact hv

/-! ### What one turn between the steps of an operation can do -/

/-- The next state of another agent's turn: an invocation begins, a frame arrives, the mode is requested, a word is sent, or
nothing happens. -/
theorem envTurn_cases {u : Turn} {s t : State} (h : envTurn u s = .next t) :
    (ingestEnabled s = true ∧ t = enterIngest s) ∨ (∃ f : Frame, f.wf ∧ u = .bus f ∧ t = busArrives f s) ∨
      (u = .ext ∧ t = extRequest s) ∨ (∃ c, u = .user c ∧ t = userSends c s) ∨ t = s := by
  cases u with
  | cpu => simp only [envTurn, Host.Outcome.next.injEq] at h; simp [h]
  | irq =>
    simp only [envTurn] at h
    split at h
    · simp only [stepI0, Host.Outcome.next.injEq] at h; exact .inl ⟨‹_›, h.symm⟩
    · simp only [Host.Outcome.next.injEq] at h; simp [h]
  | bus f =>
    simp only [envTurn] at h
    split at h
    · simp only [Host.Outcome.next.injEq] at h; exact .inr (.inl ⟨f, ‹_›, rfl, h.symm⟩)
    · cases h
  | ext => simp only [envTurn, Host.Outcome.next.injEq] at h; simp [h]
  | user c => simp only [envTurn, Host.Outcome.next.injEq] at h; simp [h]
  | op lvl c => simp only [envTurn, Host.Outcome.next.injEq] at h; simp [h]

/-- A turn inside an operation is a step of the processor or a turn of another agent. -/
theorem turnInside_cases {u : Turn} {s t : State} (h : turnInside u s = .next t) :
    (u = .cpu ∧ cpuStep s = .next t) ∨ (u ≠ .cpu ∧ envTurn u s = .next t) := by
  cases u <;> simp_all [turnInside]

/-! ### Runs in which the processor's turns are listed -/

theorem cpuStep_op {s : State} {l : Label} (ha : s.ing.active = false) (ho : s.main.op = some l) :
    cpuStep s = labelStep l s := by
  simp [cpuStep, ha, opStep, ho]

theorem cpuStep_isr {s : State} (ha : s.ing.active = true) : cpuStep s = isrStep s := by
  simp [cpuStep, ha]

/-- One labelled step of MAIN's operation. -/
theorem carryOn_op_next {s t : State} {l : Label} (r : List Turn) (ha : s.ing.active = false)
    (ho : s.main.op = some l) (h : labelStep l { s with sched := r } = .next t) :
    carryOn opInProgress (.cpu :: r) s = carryOn opInProgress r t := by
  rw [carryOn_cons r (by simp [opInProgress, ho]) rfl, turnInside,
    cpuStep_op (s := { s with sched := r }) ha ho, h]
  rfl

/-- One step of an invocation. -/
theorem carryOn_ingest_next {s t : State} (r : List Turn) (ha : s.ing.active = true)
    (h : isrStep { s with sched := r } = .next t) :
    carryOn ingestInProgress (.cpu :: r) s = carryOn ingestInProgress r t := by
  rw [carryOn_cons r (by simp [ingestInProgress, ha]) rfl, turnInside,
    cpuStep_isr (s := { s with sched := r }) ha, h]
  rfl

/-! ### When a call is taken at once -/

theorem mainBusy_eq_false {s : State} :
    mainBusy s = false ↔ s.main.op = none ∧ s.ing.active = false ∧ s.calls = [] := by
  simp [mainBusy, and_assoc]

theorem callMain_free {s : State} (c : Call) (h : mainBusy s = false) :
    callMain c s = andThen (callStep (callerAt s.level) c s) mainGoesOn := by
  simp [callMain, h]

theorem callMain_busy {s : State} (c : Call) (h : mainBusy s = true) : callMain c s = .next (waits c s) := by
  simp [callMain, h]

/-- What waiting can change: the words of USER, or the calls. -/
theorem waits_cases (c : Call) (s : State) :
    (s.level = .dlg ∧ waits c s = userSends (encode c.instr) s) ∨
      (s.level ≠ .dlg ∧ waits c s = { s with calls := s.calls ++ [c] }) := by
  by_cases h : s.level = .dlg <;> simp [waits, h]

/-- Unrecognised input waits, or shows the menu. -/
theorem unrecognised_cases (c : PortWord) (s : State) :
    (mainBusy s = true ∧ unrecognised c s = userSends c s) ∨ (mainBusy s = false ∧ unrecognised c s = menu s) := by
  cases h : mainBusy s <;> simp [unrecognised, h]

/-- The three things MAIN can be about to do. -/
theorem mainStep_op {s : State} {l : Label} (h : s.main.op = some l) : mainStep s = goOn s := by
  simp [mainStep, h]

theorem mainStep_call {s : State} {c : Call} {q : List Call} (h : s.main.op = none) (hc : s.calls = c :: q) :
    mainStep s = callStep .direct c { s with calls := q } := by
  simp [mainStep, h, hc]

theorem mainStep_loop {s : State} (h : s.main.op = none) (hc : s.calls = []) : mainStep s = loopStep s := by
  simp [mainStep, h, hc]

/-- MAIN goes on with nothing where the step it has taken is the whole operation. -/
theorem mainGoesOn_done {s : State} (h : s.main.op = none) : mainGoesOn s = .next s :=
  carryOn_done _ (by simp [opInProgress, h])

/-! ### The dialog reads a command and resumes -/

@[simp] theorem readCommand_cfg (c : PortWord) (s : State) : (readCommand c s).cfg = s.cfg := rfl
@[simp] theorem readCommand_st (c : PortWord) (s : State) : (readCommand c s).st = s.st := rfl
@[simp] theorem readCommand_rb (c : PortWord) (s : State) : (readCommand c s).rb = s.rb := rfl
@[simp] theorem readCommand_ovf (c : PortWord) (s : State) : (readCommand c s).ovf = s.ovf := rfl
@[simp] theorem readCommand_mode (c : PortWord) (s : State) : (readCommand c s).mode = s.mode := rfl
@[simp] theorem readCommand_per (c : PortWord) (s : State) : (readCommand c s).per = s.per := rfl
@[simp] theorem readCommand_ing (c : PortWord) (s : State) : (readCommand c s).ing = s.ing := rfl
@[simp] theorem readCommand_out (c : PortWord) (s : State) : (readCommand c s).out = s.out := rfl
@[simp] theorem readCommand_ret (c : PortWord) (s : State) : (readCommand c s).ret = s.ret := rfl
@[simp] theorem readCommand_level (c : PortWord) (s : State) : (readCommand c s).level = s.level := rfl
@[simp] theorem readCommand_userq (c : PortWord) (s : State) : (readCommand c s).userq = s.userq := rfl
@[simp] theorem readCommand_calls (c : PortWord) (s : State) : (readCommand c s).calls = s.calls := rfl
@[simp] theorem readCommand_sched (c : PortWord) (s : State) : (readCommand c s).sched = s.sched := rfl
@[simp] theorem readCommand_drawn (c : PortWord) (s : State) : (readCommand c s).drawn = s.drawn := rfl
@[simp] theorem readCommand_main (c : PortWord) (s : State) :
    (readCommand c s).main = { s.main with pos := .m3, cmd := c } := rfl

/-- The dialog's resumption moves the position and nothing else: from M3 to M2, once the operation has returned. -/
theorem dialogResumes_eq (s : State) :
    dialogResumes s =
      { s with main := { s.main with pos := if s.main.op = none ∧ s.main.pos = .m3 then .m2 else s.main.pos } } := by
  unfold dialogResumes; split <;> simp_all [setPos]

/-- A command MAIN waits for is run at M3, at the dialog's level, and the dialog resumes. -/
theorem dialogCommand_ok {c : PortWord} {i : Instr} (h : decode c = .ok i) (s : State) :
    dialogCommand c s =
      andThen (exec i (readCommand c { s with level := .dlg })) (fun t => .next (dialogResumes t)) := by
  simp [dialogCommand, h]

/-- Its operation goes on at later turns as one the loop has called. -/
@[simp] theorem callerAt_dlg : callerAt .dlg = .loop := rfl

@[simp] theorem callerAt_direct {l : Level} (h : l ≠ .dlg) : callerAt l = .direct := by
  cases l <;> simp_all [callerAt]

end Sys2Proof.Machine
end

