-- ==== Sys2Proof/Tests/Slice0.lean ====
section
/-! SUPPORT. Tests: words and one-operation cases written out from 95_test_vectors.md (V and T numbers are its own), and a witness for the hypotheses of every statement. -/

namespace Sys2Proof.Tests

open Sys2Proof Sys2Proof.Machine

/-! ### Fixtures of 95_test_vectors.md -/

def frA : Frame := ⟨0x1A0, 2, 0xDE, 0xAD, 0, 0, 0, 0, 0, 0⟩
def frB : Frame := ⟨0x7FF, 8, 1, 2, 3, 4, 5, 6, 7, 8⟩
def frC : Frame := ⟨0, 0, 0, 0, 0, 0, 0, 0, 0, 0⟩
def frD : Frame := ⟨0x123, 1, 0xFF, 0, 0, 0, 0, 0, 0, 0⟩
def frE : Frame := ⟨0x18DAF110, 3, 0x02, 0x10, 0x03, 0, 0, 0, 0, 0⟩
def f1 : Frame := ⟨0x100, 1, 0x11, 0, 0, 0, 0, 0, 0, 0⟩
def f2 : Frame := ⟨0x101, 1, 0x22, 0, 0, 0, 0, 0, 0, 0⟩
def f3 : Frame := ⟨0x102, 1, 0x33, 0, 0, 0, 0, 0, 0, 0⟩
def f4 : Frame := ⟨0x103, 1, 0x44, 0, 0, 0, 0, 0, 0, 0⟩
def long : Frame := { frA with length := 9 }

def e0 : BitTimingEntry := ⟨5000, 100, 13, 2⟩
def e1 : BitTimingEntry := ⟨10000, 50, 13, 2⟩

/-- `N = 8`, `TT2`, `HWQ_DEPTH = 3`, flush, an empty ring, a stopped and unconfigured bus. -/
def idle : State :=
  { State.reset with cfg := { Config.default with k := 3, table := [e0, e1], hwqDepth := 3, onStop := .flush } }

/-- Configured for entry 1 with a stored filter. -/
def tuned : State :=
  { idle with st := ⟨true, 10000, 0x100, 0x200⟩, per := { idle.per with prescaler := 50, timeSeg1 := 13, timeSeg2 := 2 } }

/-- Capturing, the bus running with the interrupt enabled. -/
def live : State :=
  { tuned with
    mode := .capturing
    per := { tuned.per with filterId := 0x100, maskId := 0x200, running := true, rxie := true } }

/-- The ring of T92: head 1, tail 6, frames A, B, C. -/
def filled (s : State) : State := { s with rb := ⟨[(0, frC), (6, frA), (7, frB)], 1, 6⟩ }

/-- A full ring of two slots. -/
def tight : State := { idle with cfg := { idle.cfg with k := 1 }, rb := ⟨[(0, frA)], 1, 0⟩ }

/-- The dialog waits for a word. -/
def asking (s : State) : State := { s with level := .dlg, main := { s.main with pos := .m2 } }

/-- The dialog is about to dispatch word `c`. -/
def told (s : State) (c : PortWord) : State := { s with main := { s.main with pos := .m3, cmd := c } }

/-- The processor moves next. -/
def cpu (s : State) : State := { s with sched := [.cpu] }

/-- `k` turns of the processor are listed, then `r`. -/
def turns (k : Nat) (r : List Turn) (s : State) : State := { s with sched := List.replicate k .cpu ++ r }

/-- The operation in progress was called by `who`. -/
def called (who : Caller) (s : State) : State := { s with main := { s.main with caller := who } }

/-- MAIN is at label `l` of an operation. -/
def at' (l : Label) (s : State) : State := { s with main := { s.main with op := some l } }

/-- An invocation is in progress at `p`. -/
def inside (p : IngPos) (s : State) : State := { s with ing := { s.ing with active := true, pos := p } }

def after (r : Res) : Option State :=
  match r with
  | .next t => some t
  | .fault _ => none
  | .refused _ => none

def refusal (r : Res) : Option Refusal :=
  match r with
  | .next _ => none
  | .fault _ => none
  | .refused e => some e

def faultOf (r : Res) : Option Fault :=
  match r with
  | .next _ => none
  | .fault e => some e
  | .refused _ => none

theorem goes {r : Res} (h : (after r).isSome = true) : ∃ t, r = .next t := by
  cases r with
  | next t => exact ⟨t, rfl⟩
  | fault e => cases h
  | refused e => cases h

/-! ### WellFormed: the one check, in each operation that has it -/

theorem test_illFormed_rbPush : (Instr.rbPush long).isWf = false := by decide
theorem test_illFormed_busRx : (Instr.busRx long).isWf = false := by decide
theorem test_illFormed_notWf : ¬(Instr.rbPush long).wf ∧ ¬(Instr.busRx long).wf := by decide
theorem test_wellFormed_longest : (Instr.rbPush frB).wf ∧ (Instr.busRx frB).isWf = true := by decide

/-! ### Words of 95 2.1 and the fixture tables -/

theorem test_decode_cfgManual : decode 0x0007A1201 = .ok (.cfgManual 500000) := by decide
theorem test_decode_cfgManual_all : decode 0xFFFFFFFF1 = .ok (.cfgManual 0xFFFFFFFF) := by decide
theorem test_decode_cfgAuto : decode 0x000000002 = .ok (.cfgAuto false) ∧ decode 0x000000012 = .ok (.cfgAuto true) := by decide
theorem test_decode_setFm : decode 0xF800FFFF3 = .ok (.setFm 0xFFFF 0xF800) := by decide
theorem test_decode_getStatus : decode 0x000000004 = .ok (.getStatus false) := by decide
theorem test_decode_start : decode 0x000000005 = .ok .start := by decide
theorem test_decode_stop : decode 0x000000006 = .ok .stop := by decide
theorem test_decode_drain : decode 0x000000007 = .ok .drain := by decide
theorem test_decode_quit : decode 0x000000008 = .ok .quit := by decide
theorem test_decode_extReq : decode 0x000000009 = .ok .extReq := by decide
theorem test_decode_ingest : decode 0x00000000A = .ok .ingest := by decide
theorem test_decode_rbPush : decode 0x080706050403020108000007FFB = .ok (.rbPush frB) := by decide
theorem test_decode_rbPop : decode 0x00000000C = .ok .rbPop := by decide
theorem test_decode_rbReset : decode 0x00000000D = .ok .rbReset := by decide
theorem test_decode_busRx : decode 0x000000000000ADDE02000001A0E = .ok (.busRx frA) := by decide
theorem test_decode_reserved : decode 0x000000000 = .ok .reserved0 ∧ decode 0x00000000F = .ok .reservedF := by decide
theorem test_decode_illegal : decode 0x00000000000000000900000001B = .error .illegalLength := by decide

theorem test_encode_words : encode (.cfgManual 10000) = 0x000027101 ∧ encode (.setFm 0x900 0xA00) = 0x0A0009003 ∧
    encode (.rbPush frE) = 0x00000000000310020318DAF110B ∧ encode (.busRx f1) = 0x00000000000000110100000100E := by decide

/-- The host's table words: four bits, the operand bits zero. -/
theorem test_decodeTableWord : decodeTableWord 36 0x000027101 = some (.cfgManual 10000) ∧
    decodeTableWord 8 0x05 = some .start ∧ decodeTableWord 108 0x00000000000000000900000001B = none := by decide

theorem test_statusWord : statusWord ⟨true, 10000, 0x100, 0x200⟩ = 0x00400020000004E21 ∧
    statusWord ⟨true, 10000, 0x7FF, 0x7FF⟩ = 0x00FFE0FFE00004E21 := by decide
theorem test_entryWord : entryWord e0 = 0x020D006400001388 ∧ entryWord e1 = 0x020D003200002710 := by decide
theorem test_flagsWord : flagsWord ⟨true, false⟩ = 0b01 ∧ flagsWord ⟨false, true⟩ = 0b10 ∧
    modeBit .configuring = 0 ∧ modeBit .capturing = 1 := by decide

/-! ### One operation each, from 95 1 and 2 -/

/-- V1. -/
theorem test_cfgManual_noMatch : (after (exec (.cfgManual 20000) tuned)).map (fun t => (t.st, t.ret, t.per.prescaler)) =
    some (⟨false, 0, 0x100, 0x200⟩, .status ⟨false, 0, 0x100, 0x200⟩, 50) := by decide

/-- T4: the first of two entries with one bitrate. -/
theorem test_cfgManual_first :
    (after (exec (.cfgManual 5000) { idle with cfg := { idle.cfg with table := [e0, ⟨5000, 200, 6, 1⟩] } })).map
      (fun t => (t.st, t.per.prescaler, t.per.timeSeg1, t.per.timeSeg2)) = some (⟨true, 5000, 0, 0⟩, 100, 13, 2) := by decide

/-- V5, T10. -/
theorem test_setFm : (after (exec (.setFm 0x900 0xA00) idle)).map (·.st) = some ⟨false, 0, 0x100, 0x200⟩ ∧
    (after (exec (.setFm 0xFFFF 0xF800) idle)).map (·.st) = some ⟨false, 0, 0x7FF, 0⟩ := by decide

/-- T11: the peripheral's filter waits for the next START. -/
theorem test_setFm_stored : (after (exec (.setFm 0x123 0x7FF) live)).map (fun t => (t.st.filterId, t.per.filterId)) =
    some (0x123, 0x100) := by decide

/-- T12, T13. -/
theorem test_getStatus : (after (exec (.getStatus true) tuned)).map (·.out) = some [.status ⟨true, 10000, 0x100, 0x200⟩] ∧
    (after (exec (.getStatus false) tuned)).map (fun t => (t.out, t.ret)) =
      some ([], .status ⟨true, 10000, 0x100, 0x200⟩) := by decide

/-- T14. -/
theorem test_start : (after (exec .start (turns 3 [] tuned))).map (fun t => (t.ret, t.per)) = some (.bool true, live.per) := by decide

/-- V8, T15, T16. -/
theorem test_start_false : (after (exec .start idle)).map (fun t => (t.ret, t.per, t.mode)) =
    some (.bool false, idle.per, .configuring) ∧
    refusal (exec .start live) = some .peripheralRunning := by decide

/-- T17. -/
theorem test_stop : (after (exec .stop (turns 2 [] { filled live with ovf := ⟨false, true⟩ }))).map
    (fun t => (t.rb.head, t.rb.tail, t.per.running, t.per.rxie, t.ovf, t.st)) =
      some (0, 0, false, false, ⟨false, true⟩, live.st) := by decide

/-- T20, T21. -/
theorem test_stop_queue :
    (after (exec .stop (turns 2 [] { live with per := { live.per with rxq := [f1], lost := true } }))).map
      (fun t => (t.per.rxq, t.per.lost)) = some ([], false) ∧
    (after (exec .stop (turns 2 [] { live with
        cfg := { live.cfg with onStop := .retain }, per := { live.per with rxq := [f1], lost := true } }))).map
      (fun t => (t.per.rxq, t.per.lost)) = some ([f1], true) := by decide

/-- T30. -/
theorem test_cfgAuto_silent : (after (exec (.cfgAuto false) (turns 17 [] tuned))).map
    (fun t => (t.st, t.per.prescaler, t.per.filterId, t.per.running)) =
      some (⟨false, 0, 0x100, 0x200⟩, 50, 0, false) := by decide

/-- T32, V7: twelve steps of MAIN after a0, then a frame in the dwell of entry 1. -/
theorem test_cfgAuto_second :
    (after (exec (.cfgAuto true) (turns 12 [.bus f1, .cpu, .cpu, .cpu, .cpu] idle))).map
      (fun t => (t.st, t.per.prescaler, t.ret)) =
      some (⟨true, 10000, 0, 0⟩, 50, .status ⟨true, 10000, 0, 0⟩) := by decide

/-- T50, T53 (N = 8). -/
theorem test_rbPush : (after (exec (.rbPush frA) idle)).map (fun t => (t.ret, t.rb)) =
    some (.bool true, ⟨[(0, frA)], 1, 0⟩) ∧
    (after (exec (.rbPush frD) { idle with rb := ⟨[], 7, 0⟩ })).map (fun t => (t.ret, t.rb, t.ovf)) =
      some (.bool false, ⟨[], 7, 0⟩, ⟨false, true⟩) := by decide

/-- T51 (N = 8): the head wraps. -/
theorem test_rbPush_wraps : (after (exec (.rbPush frA) { idle with rb := ⟨[], 7, 3⟩ })).map (·.rb) =
    some ⟨[(7, frA)], 0, 3⟩ := by decide

/-- T56 (N = 8), T55: the tail wraps; an empty ring gives none. -/
theorem test_rbPop : (after (exec .rbPop { idle with rb := ⟨[(7, frB)], 0, 7⟩ })).map (fun t => (t.ret, t.rb.tail)) =
    some (.frame (some frB), 0) ∧
    (after (exec .rbPop { idle with rb := ⟨[], 5, 5⟩ })).map (fun t => (t.ret, t.rb.tail)) =
      some (.frame none, 5) := by decide

/-- T60. -/
theorem test_rbReset : (after (exec .rbReset { filled idle with ovf := ⟨false, true⟩ })).map (fun t => (t.rb, t.ovf)) =
    some (⟨(filled idle).rb.slots, 0, 0⟩, ⟨false, true⟩) := by decide

/-- T70, T71, T72. -/
theorem test_busRx : (after (exec (.busRx f1) idle)).map (·.per.rxq) = some [] ∧
    (after (exec (.busRx f1) { live with cfg := { live.cfg with rejects := [(0x100, 0x200, f1)] } })).map (·.per) =
      some live.per ∧
    (after (exec (.busRx f4) { live with per := { live.per with rxq := [f1, f2, f3] } })).map
      (fun t => (t.per.rxq, t.per.lost)) = some ([f1, f2, f3], true) := by decide

/-- P5 step 3: a dead bit rate hears nothing. -/
theorem test_busRx_dead :
    (after (exec (.busRx f1) { live with cfg := { live.cfg with deadTimings := [(50, 13, 2)] } })).map (·.per.rxq) =
      some [] := by decide

/-- T79 (N = 2): both losses in one invocation. -/
theorem test_ingest_losses :
    (after (exec .ingest (turns 7 [] { tight with per := { live.per with rxq := [f1], lost := true } }))).map
      (fun t => (t.ovf, t.per.lost, t.per.rxq, t.rb)) = some (⟨true, true⟩, false, [], ⟨[(0, frA)], 1, 0⟩) := by decide

/-- T76 (DRAIN_BOUND = 2): the bound ends the drain and `irq` stays true. -/
theorem test_ingest_bound :
    (after (exec .ingest (turns 10 [] { live with
        cfg := { live.cfg with drainBound := 2 }, per := { live.per with rxq := [f1, f2, f3] } }))).map
      (fun t => (t.rb, t.per.rxq, irqSignal t, t.ing.n)) = some (⟨[(0, f1), (1, f2)], 2, 0⟩, [f3], true, 2) := by decide

/-- T92. -/
theorem test_drain : (after (exec .drain (turns 16 [] { filled live with ovf := ⟨false, true⟩ }))).map
    (fun t => (t.out, t.rb.head, t.rb.tail, t.ovf)) =
      some ([.diag .swLoss, .frame frA, .frame frB, .frame frC], 1, 1, ⟨false, false⟩) := by decide

/-- T93: an invocation between `d3` and `d4`. -/
theorem test_drain_interrupted :
    (after (exec .drain { live with
        rb := ⟨[(0, frA), (1, frB)], 2, 0⟩, per := { live.per with rxq := [frC] }
        sched := [.cpu, .cpu, .irq] ++ List.replicate 21 .cpu })).map (fun t => (t.out, t.rb.head, t.rb.tail)) =
      some ([.frame frA, .frame frB, .frame frC], 3, 3) := by decide

/-- T102. -/
theorem test_quit : (after (exec .quit (turns 4 [] (asking tuned)))).map (fun t => (t.mode, t.main.pos, t.per.running, t.per.rxie)) =
    some (.capturing, .m0, true, true) := by decide

/-- T101. -/
theorem test_quit_fails : (after (exec .quit (asking idle))).map (fun t => (t.mode, t.main.pos, t.out)) =
    some (.configuring, .m2, [.startFail]) := by decide

/-- T106: a request between `t4` and the write of `mode` is lost; T105. -/
theorem test_extReq : (after (exec .quit { asking tuned with sched := [.cpu, .cpu, .cpu, .ext, .cpu] })).map (·.mode) =
    some .capturing ∧ (after (exec .extReq live)).map (·.mode) = some .configuring := by decide

/-- T103 and 30 R87. -/
theorem test_reserved : (after (exec .reserved0 (asking idle))).map (·.out) = some [.menu] ∧
    (after (exec .drain (asking idle))).map (·.out) = some [.menu] ∧
    refusal (exec .reserved0 idle) = some .reservedOutsideDialog ∧
    refusal (exec .reservedF idle) = some .reservedOutsideDialog ∧
    (after (exec .reservedF (asking idle))).map (·.out) = some [.menu] := by decide

/-- T109. -/
theorem test_stop_from_handler : refusal (exec .stop { at' .d6 (filled live) with level := .ext }) = some .discipline := by decide

/-- T108: STOP's `s1` before the pending invocation starts. -/
theorem test_stop_beats_invocation :
    (after (exec .stop { live with per := { live.per with rxq := [f1] }, sched := [.irq, .cpu, .cpu] })).map
      (fun t => (t.ing.active, t.rb.slots)) = some (false, []) := by decide

/-- T100: power-on, MAIN steps to M2 and STOP changes nothing. -/
theorem test_power_on : (after (steps 4 { State.reset with sched := [.cpu, .cpu, .cpu, .cpu] })).map
    (fun t => (t.main.pos, t.main.op, t.out, t.rb)) = some (.m2, none, [], ⟨[], 0, 0⟩) := by decide

/-- 45 R190: with nothing listed a DRAIN is in progress after its first step. -/
theorem test_drain_goes_on : (after (exec .drain (filled live))).map (fun t => (t.main.op, t.main.caller, t.out)) =
    some (some .d2, .direct, []) := by decide

/-- 00_scope.md R8, 60 R221: a SET_FM issued inside an invocation waits until it has returned; MAIN then takes it. -/
theorem test_setFm_waits :
    (after (steps 5 (at' .d5 { inside .i3 live with
        sched := [.op .api 0x0A0009003, .cpu, .cpu, .cpu, .cpu] }))).map
      (fun t => (t.st.filterId, t.calls, t.ing.active, t.main.op)) = some (0x100, [], false, none) ∧
    (after (step { inside .i3 tuned with st := ⟨true, 10000, 1, 1⟩, sched := [.op .api 0x0A0009003] })).map
      (fun t => (t.st.filterId, t.calls)) = some (1, [.setFm 0x900 0xA00]) := by decide

/-- 46 R196: a dialog command in progress has MAIN at M3; when it returns, in the same step or a later one, MAIN is at M2. -/
theorem test_dialog_command_at_M3 :
    (after (step { asking idle with sched := [.op .dlg 0x000000012] })).map (fun t => (t.main.pos, t.main.op)) =
      some (.m3, some .a1) ∧
    (after (step { turns 17 [] (asking idle) with
        sched := .op .dlg 0x000000012 :: List.replicate 17 .cpu })).map (fun t => (t.main.pos, t.main.op)) =
      some (.m2, none) ∧
    (after (steps 17 (turns 17 [] (at' .a1 (called .loop (told idle 0x000000012)))))).map
      (fun t => (t.main.pos, t.main.op)) = some (.m2, none) := by decide

/-- 42 R143: a STOP issued inside CFG_AUTO waits for its end. -/
theorem test_stop_waits :
    (after (step { at' .a5 idle with sched := [.op .api 6] })).map (fun t => (t.main.op, t.calls)) =
      some (some .a5, [.stop]) := by decide

/-- The placed word is the first operation after power-on. -/
theorem test_placed : (after (step (State.reset.withFetchWord 36 0x0A0009003))).map (·.st) =
    some ⟨false, 0, 0x100, 0x200⟩ ∧
    (after (step (State.reset.withFetchWord 36 0x000000008))).map (·.out) = some [.startFail] := by decide

/-- The numbered registers of 10_state.md R45. -/
theorem test_registers : readReg 1 live = some (.bits 32 10000) ∧ readReg 4 (filled live) = some (.bits 3 1) ∧
    readReg 8 live = some (.bits 1 1) ∧ readReg 17 live = some (.fifo []) ∧ readReg 18 live = none := by decide

/-! ### The invariants as checks on lists -/

/-- `DataInv`, on lists. -/
abbrev dataHolds (s : State) : Prop :=
  s.cfg.wf ∧ (s.st.configured = false → s.st.bitrate = 0) ∧
  (s.st.filterId.toNat ≤ 0x7FF ∧ s.st.maskId.toNat ≤ 0x7FF) ∧
  (s.per.filterId.toNat ≤ 0x7FF ∧ s.per.maskId.toNat ≤ 0x7FF) ∧
  (s.rb.head < s.cfg.n ∧ s.rb.tail < s.cfg.n) ∧ s.rb.slots.wf s.cfg.n = true ∧
  (∀ c ∈ s.rb.slots, c.2.wf) ∧
  (∀ j ∈ List.range (occupancy s), (s.rb.slots.read (reduceIndex s.cfg (s.rb.tail + j))).isSome = true) ∧
  (s.per.rxq.length ≤ s.cfg.hwqDepth ∧ ∀ f ∈ s.per.rxq, f.wf) ∧
  (∀ f ∈ forwarded s.out, f.wf) ∧ (s.ing.f.wf ∧ s.main.fwF.wf)

theorem read_mem {m : Memory} {i : Nat} {f : Frame} (h : m.read i = some f) : (i, f) ∈ m := by
  induction m with
  | nil => simp [Memory.read] at h
  | cons c r ih =>
    obtain ⟨j, g⟩ := c
    simp only [Memory.read] at h
    split at h
    · rename_i he; cases h; subst he; exact List.mem_cons_self ..
    · exact List.mem_cons_of_mem _ (ih h)

theorem dataInv_of {s : State} (h : dataHolds s) : DataInv s := by
  obtain ⟨h1, h2, h3, h4, h5, h6, h7, h8, h9, h10, h11⟩ := h
  refine ⟨h1, h2, h3, h4, h5, h6, fun i f hr => h7 _ (read_mem hr), fun j hj => h8 j (List.mem_range.2 hj), h9,
    fun f hf => h10 f ?_, h11⟩
  exact List.mem_filterMap.2 ⟨_, hf, rfl⟩

/-- `ControlInv` but for the probe, on lists. -/
abbrev controlHolds (s : State) : Prop :=
  (s.ing.active = true → s.ing.pos = .i4 → s.ing.n < s.cfg.drainBound ∧ s.per.rxq ≠ []) ∧
  (s.per.rxie = true → s.per.running = true ∧ s.st.configured = true) ∧
  ((s.main.op = some .t2 ∨ s.main.op = some .t3 ∨ s.main.op = some .t4 → s.st.configured = true) ∧
    (s.main.op = some .t4 → s.per.running = true) ∧ (s.main.op = some .q1 → s.per.rxie = true)) ∧
  (∀ l ∈ s.main.op.toList, l = .s2 ∨ l = .s3 ∨ (autoLabel l = true ∧ l ≠ .a0) → s.per.rxie = false) ∧
  (popPartWay s = true → s.main.fwT = s.rb.tail ∧ s.rb.head ≠ s.rb.tail) ∧
  (s.main.op = some .d7 → s.rb.slots.read s.rb.tail = some s.main.fwF)

/-- The probe and `INV_CFG`, on lists. -/
abbrev timingHolds (s : State) : Prop :=
  (∀ l ∈ s.main.op.toList, l = .a2 ∨ probeProgrammed l = true →
    ∃ e ∈ s.cfg.table[s.main.adIdx]?.toList, probeProgrammed l = true →
      s.per.prescaler = e.prescaler ∧ s.per.timeSeg1 = e.timeSeg1 ∧ s.per.timeSeg2 = e.timeSeg2) ∧
  (s.st.configured = true → probing s = false →
    ∃ e ∈ s.cfg.table, e.bitrate = s.st.bitrate ∧
      s.per.prescaler = e.prescaler ∧ s.per.timeSeg1 = e.timeSeg1 ∧ s.per.timeSeg2 = e.timeSeg2)

theorem controlInv_of {s : State} (h : controlHolds s) (g : timingHolds s) : ControlInv s := by
  obtain ⟨h1, h2, h3, h4, h7, h8⟩ := h
  obtain ⟨h5, h6⟩ := g
  refine ⟨h1, h2, h3, fun l hl => h4 l (by simp [hl]), fun l hl hp => ?_, h6, h7, h8⟩
  obtain ⟨e, he, ht⟩ := h5 l (by simp [hl]) hp
  exact ⟨e, by simpa using he, ht⟩

theorem blockInv_of {s : State} (h : dataHolds s) (g : controlHolds s) (k : timingHolds s) : BlockInv s :=
  ⟨dataInv_of h, controlInv_of g k⟩

/-- `LoopInv`, on lists. -/
abbrev loopHolds (s : State) : Prop :=
  (∀ l ∈ s.main.op.toList, labelAt s.main.pos l = true) ∧
  (s.calls = [] ∧ ∀ l ∈ s.main.op.toList, s.main.caller = if startLabel l then .quit else .loop) ∧
  (s.main.pos = .m2 ∨ s.main.pos = .m3 → s.main.op = none →
    s.per.running = false ∧ s.per.rxie = false ∧ s.rb.head = 0 ∧ s.rb.tail = 0) ∧
  (s.main.op = some .t1 ∨ s.main.op = some .t2 ∨ s.main.op = some .t3 →
    s.per.running = false ∧ s.per.rxie = false ∧ s.rb.head = 0 ∧ s.rb.tail = 0) ∧
  ((s.main.op = some .t2 ∨ s.main.op = some .t3 ∨ s.main.op = some .t4 → s.st.configured = true) ∧
    (s.main.op = some .t4 → s.per.running = true ∧ s.per.rxie = false ∧ s.rb.head = 0 ∧ s.rb.tail = 0) ∧
    (s.main.op = some .q1 → s.per.rxie = true))

/-- The rest of `LoopInv`. -/
abbrev captureHolds (s : State) : Prop :=
  (probing s = true → (s.per.rxie = false ∧ s.rb.head = 0 ∧ s.rb.tail = 0) ∧
    (s.per.running = true → s.main.op = some .a5 ∨ s.main.op = some .a6 ∨ s.main.op = some .a7)) ∧
  ((s.main.op = some .s2 ∨ s.main.op = some .s3 → s.per.rxie = false) ∧
    (s.main.op = some .s3 → s.per.running = false)) ∧
  (s.per.rxie = true → s.per.running = true ∧ s.st.configured = true) ∧
  (s.main.pos = .m4 → s.per.running = true ∧ s.per.rxie = true) ∧
  (s.mode = .capturing → (s.main.pos = .m0 ∨ s.main.pos = .m4) ∧ s.per.running = true ∧ s.per.rxie = true) ∧
  (s.ing.active = true → s.per.rxie = true)

theorem loopInv_of {s : State} (h : loopHolds s) (g : captureHolds s) : LoopInv s := by
  obtain ⟨h1, h2, h3, h4, h5⟩ := h
  obtain ⟨h6, h7, h8, h9, h10, h11⟩ := g
  exact ⟨fun l hl => h1 l (by simp [hl]), ⟨h2.1, fun l hl => h2.2 l (by simp [hl])⟩, h3, h4, h5, h6, h7, h8, h9, h10, h11⟩

/-! ### Witnesses: states and operands that meet the hypotheses of each statement, clause by clause -/

theorem idle_inv : BlockInv idle := blockInv_of (by decide) (by decide) (by decide)
theorem tuned_inv : BlockInv tuned := blockInv_of (by decide) (by decide) (by decide)
theorem live_inv : BlockInv live := blockInv_of (by decide) (by decide) (by decide)
theorem filled_inv : BlockInv (filled live) := blockInv_of (by decide) (by decide) (by decide)
theorem tight_inv : BlockInv tight := blockInv_of (by decide) (by decide) (by decide)
/-- Turns of every agent between those of the processor. -/
def mixed : List Turn := [.bus f1, .irq, .user 7, .ext] ++ List.replicate 30 .cpu

theorem mixed_ok : ∀ u ∈ mixed, loopTurn u := by
  intro u hu
  simp only [mixed, List.mem_append, List.mem_cons, List.not_mem_nil, or_false, List.mem_replicate] at hu
  rcases hu with (rfl | rfl | rfl | rfl) | ⟨_, rfl⟩ <;> simp [loopTurn, f1, maxLen]

theorem live_loop : LoopInv live := loopInv_of (by decide) (by decide)

theorem witness_EncodeThenDecodeGivesTheOperationBack :
    (Instr.rbPush frB).wf ∧ (Instr.busRx frC).wf ∧ (Instr.cfgManual 0xFFFFFFFF).wf := by decide

theorem witness_DecodeReadsEveryOperandBit :
    decode 0xFFFFFFFF1 = .ok (.cfgManual 0xFFFFFFFF) ∧ decode 0xF800FFFF3 = .ok (.setFm 0xFFFF 0xF800) ∧
    decode 0xFFFFFFFE2 = .ok (.cfgAuto false) ∧ decode 0x000000014 = .ok (.getStatus true) ∧
    decode 0x080706050403020108000007FFB = .ok (.rbPush frB) ∧
    decode 0x00000000000000000000000000E = .ok (.busRx frC) := by decide

theorem witness_IgnoredOperandBitsDecodeAlike :
    opOf 0xFFFFFFFE2 = 0x2 ∧ opOf 0xFFFFFFFF4 = 0x4 ∧ opOf 0x123456785 = 0x5 ∧ opOf 0xFFFFFFFF6 = 0x6 ∧
    opOf 0xFFFFFFFF7 = 0x7 ∧ opOf 0xFFFFFFFF8 = 0x8 ∧ opOf 0xFFFFFFFF9 = 0x9 ∧ opOf 0xFFFFFFFFA = 0xA ∧
    opOf 0xFFFFFFFFC = 0xC ∧ opOf 0xFFFFFFFFD = 0xD := by decide

/-- Length 9 is rejected, length 8 is not. -/
theorem witness_LongFrameWordsAreRejected :
    { idle with sched := [.op .prim 0x00000000000000000900000001B] }.sched =
      .op .prim 0x00000000000000000900000001B :: [] ∧
    decode 0x00000000000000000900000001B = .error .illegalLength ∧ Level.prim ≠ .dlg ∧
    opOf 0x00000000000000000900000001B = 0xB ∧
    8 < ((0x00000000000000000900000001B : PortWord).extractLsb' 36 8).toNat ∧
    decode 0x00000000000000000800000001B = .ok (.rbPush ⟨1, 8, 0, 0, 0, 0, 0, 0, 0, 0⟩) := by decide

/-- An issued word, one for the waiting dialog, one it does not wait for, a word of USER; MAIN inside an operation, inside an
invocation, with a call waiting; no pop part-way. -/
theorem witness_StepRunsTheIssuedOperation :
    decode 0x000000005 = .ok .start ∧ decode 0x000000008 = .ok .quit ∧
    decode 0x00000000000000000900000001B = .error .illegalLength ∧
    dialogWaits { asking idle with sched := [.op .dlg 8] } = true ∧
    dialogWaits { idle with sched := [.op .dlg 8] } = false ∧
    { idle with sched := [.user 8] }.sched = .user 8 :: [] ∧
    ((at' .a5 idle).main.op ≠ none ∧ (at' .a5 idle).level = .api ∧ popPartWay (at' .a5 idle) = false ∧
      (at' .a5 idle).ing.active = false) ∧
    (inside .i3 live).ing.active = true ∧ { live with calls := [.stop] }.calls ≠ [] ∧
    ((at' .a5 (asking idle)).main.op ≠ none ∧ (at' .a5 (asking idle)).level = .dlg) := by decide

theorem witness_PlacedWordRunsNext :
    decode 0x000000006 = .ok .stop ∧ Instr.stop.homeLevel ≠ .dlg ∧
    decode 0x000000008 = .ok .quit ∧ Instr.quit.homeLevel = .dlg := by decide

/-- Inside an operation that goes on, one that was not called by the loop, STOP's return to M2, DRAIN's to M0, a refusal; a
call that waits; each position. -/
theorem witness_MainlineLoopSteps :
    ((cpu (at' .d1 live)).ing.active = false ∧ (cpu (at' .d1 live)).main.op = some .d1) ∧
    ((after (labelStep .d1 { cpu (at' .d1 live) with sched := [] })).map (·.main.op) = some (some .d2)) ∧
    ((after (labelStep .s3 { at' .s3 idle with sched := [] })).map (·.main.op) = some none ∧
      (at' .s3 idle).main.caller ≠ .loop) ∧
    ((after (labelStep .s3 (called .loop (at' .s3 { idle with main := { idle.main with pos := .m1 } })))).map
        (fun t => (t.main.op, t.main.pos)) = some (none, .m1) ∧ (called .loop idle).main.caller = .loop) ∧
    (after (labelStep .d5 (called .loop (at' .d5 { live with main := { live.main with pos := .m4 } })))).map
        (fun t => (t.main.op, t.main.pos)) = some (none, .m4) ∧
    refusal (labelStep .a0 (at' .a0 live)) = some .peripheralRunning ∧
    faultOf (labelStep .d6 (at' .d6 idle)) = some .slotNeverWritten ∧
    ({ live with calls := [.stop, .rbPop] }.calls = .stop :: [.rbPop] ∧ live.main.op = none ∧
      (after (exec .stop { live with sched := [], calls := [], level := .api })).isSome = true) ∧
    ((cpu idle).ing.active = false ∧ (cpu idle).main.op = none ∧ (cpu idle).calls = [] ∧ (cpu idle).main.pos = .m0 ∧
      (cpu idle).mode = .configuring) ∧
    ((cpu live).main.op = none ∧ (cpu live).main.pos = .m0 ∧ (cpu live).mode = .capturing) ∧
    (cpu { idle with main := { idle.main with pos := .m1 } }).main.pos = .m1 ∧
    ((cpu (asking idle)).main.pos = .m2 ∧ (cpu (asking idle)).userq = []) ∧
    (cpu { asking idle with userq := [8] }).userq = 8 :: [] ∧
    (cpu { live with main := { live.main with pos := .m4 } }).main.pos = .m4 := by decide

theorem witness_DialogDispatchesTheCommand :
    ((cpu (told idle 0x000027101)).ing.active = false ∧ (cpu (told idle 0x000027101)).main.op = none ∧
      (cpu (told idle 0x000027101)).calls = [] ∧ (cpu (told idle 0x000027101)).main.pos = .m3) ∧
    decode (told idle 0x000027101).main.cmd = .ok (.cfgManual 10000) ∧
    decode (told idle 0x0A0009003).main.cmd = .ok (.setFm 0x900 0xA00) ∧
    decode (told idle 0x000000014).main.cmd = .ok (.getStatus true) ∧
    (decode (told idle 0x000000012).main.cmd = .ok (.cfgAuto true) ∧ (told idle 0x000000012).per.running = false) ∧
    (decode (told tuned 8).main.cmd = .ok .quit ∧ (told tuned 8).per.running = false ∧
      (told tuned 8).st.configured = true) ∧
    (decode (told idle 8).main.cmd = .ok .quit ∧ (told idle 8).st.configured = false) := by decide

theorem witness_UnrecognisedInputShowsTheMenu :
    ((cpu (told idle 7)).ing.active = false ∧ (cpu (told idle 7)).main.op = none ∧ (cpu (told idle 7)).main.pos = .m3 ∧
      (cpu (told idle 7)).calls = [] ∧
      opOf (told idle 7).main.cmd ≠ 0x1 ∧ opOf (told idle 7).main.cmd ≠ 0x2 ∧ opOf (told idle 7).main.cmd ≠ 0x3 ∧
      opOf (told idle 7).main.cmd ≠ 0x4 ∧ opOf (told idle 7).main.cmd ≠ 0x8) ∧
    ((asking idle).level = .dlg ∧ mainBusy (asking idle) = false ∧ Instr.drain.opcode ≠ 0x1 ∧ Instr.drain.opcode ≠ 0x2 ∧ Instr.drain.opcode ≠ 0x3 ∧
      Instr.drain.opcode ≠ 0x4 ∧ Instr.drain.opcode ≠ 0x8) := by decide

theorem witness_ReservedCodesMenuOrRefused :
    (asking idle).level = .dlg ∧ mainBusy (asking idle) = false ∧ idle.level ≠ .dlg := by decide

theorem witness_EnteringConfiguringStopsTheBus :
    { live with mode := .configuring, sched := [.cpu, .cpu, .cpu, .cpu] }.sched = .cpu :: .cpu :: .cpu :: .cpu :: [] ∧
    live.ing.active = false ∧ live.main.op = none ∧ live.calls = [] ∧ live.main.pos = .m0 := by decide

theorem witness_ExtRequestWritesOnlyMode :
    opOf 0x123456789 = 0x9 ∧ live.level ≠ .dlg ∧ { live with sched := [.ext] }.sched = .ext :: [] := by decide

theorem witness_EveryStepKeepsInv : BlockInv (cpu live) ∧ ∃ t, step (cpu live) = .next t :=
  ⟨blockInv_of (by decide) (by decide) (by decide), goes (by decide)⟩

theorem witness_LegalTurnsNeverFault :
    BlockInv { live with sched := [.bus frB, .op .prim 0xC] } ∧ schedOk { live with sched := [.bus frB, .op .prim 0xC] } := by
  refine ⟨blockInv_of (by decide) (by decide) (by decide), ?_⟩
  intro u hu
  simp only [List.mem_cons, List.not_mem_nil, or_false] at hu
  rcases hu with rfl | rfl
  · show frB.wf
    decide
  · exact .inr ⟨.rbPop, by decide⟩

/-- A step inside a CFG_AUTO probe, and one of an invocation, of a run of the loop. -/
theorem witness_LoopRunsWithoutRefusal :
    (BlockInv (cpu live) ∧ LoopInv (cpu live) ∧ loopTurn .cpu) ∧
    (BlockInv (cpu (inside .i1 live)) ∧ LoopInv (cpu (inside .i1 live))) ∧
    (BlockInv (cpu (called .loop (at' .a3 (told { idle with per := { idle.per with prescaler := 100, timeSeg1 := 13, timeSeg2 := 2 } } 2)))) ∧
      LoopInv (cpu (called .loop (at' .a3 (told { idle with per := { idle.per with prescaler := 100, timeSeg1 := 13, timeSeg2 := 2 } } 2))))) ∧
    LoopInv (cpu (told idle 8)) :=
  ⟨⟨blockInv_of (by decide) (by decide) (by decide), loopInv_of (by decide) (by decide), trivial⟩,
    ⟨blockInv_of (by decide) (by decide) (by decide), loopInv_of (by decide) (by decide)⟩,
    ⟨blockInv_of (by decide) (by decide) (by decide), loopInv_of (by decide) (by decide)⟩,
    loopInv_of (by decide) (by decide)⟩

theorem witness_TableIsNeverWritten : ∃ t, step { idle with sched := [.op .api 0x0000027101] } = .next t :=
  goes (by decide)

/-- QUIT's write of `mode` in the loop; QUIT at the dialog; EXT's turn; EXT_REQ issued; EXT inside a DRAIN. -/
theorem witness_OnlyQuitCapturesOnlyExtConfigures :
    BlockInv (cpu { at' .q1 live with mode := .configuring }) ∧
    (after (step (cpu { at' .q1 live with mode := .configuring }))).map (·.mode) = some .capturing ∧
    BlockInv { asking tuned with sched := [.op .dlg 8, .cpu, .cpu, .cpu, .cpu] } ∧
    (after (step { asking tuned with sched := [.op .dlg 8, .cpu, .cpu, .cpu, .cpu] })).map (·.mode) = some .capturing ∧
    BlockInv { live with sched := [.ext] } ∧
    (after (step { live with sched := [.ext] })).map (·.mode) = some .configuring ∧
    (after (step { live with sched := [.op .ext 9] })).map (·.mode) = some .configuring ∧
    (after (step { live with sched := [.op .api 7, .ext] })).map (·.mode) = some .configuring :=
  ⟨blockInv_of (by decide) (by decide) (by decide), by decide, blockInv_of (by decide) (by decide) (by decide),
    by decide, blockInv_of (by decide) (by decide) (by decide), by decide, by decide, by decide⟩

theorem witness_OverflowFlagsHaveOneSetterAndOneClearer :
    (after (step (cpu (inside .i1 { live with per := { live.per with lost := true } })))).map (·.ovf) = some ⟨true, false⟩ ∧
    (after (step (cpu (inside .i5 tight)))).map (·.ovf) = some ⟨false, true⟩ ∧
    (after (step (cpu { at' .d2 live with
        ovf := ⟨true, false⟩, main := { (at' .d2 live).main with fwH := true } }))).map (·.ovf) = some ⟨false, false⟩ ∧
    (after (step (cpu { at' .d4 live with
        ovf := ⟨false, true⟩, main := { (at' .d4 live).main with fwS := true } }))).map (·.ovf) = some ⟨false, false⟩ := by
  decide

theorem witness_InterruptEnableHasOneSetterAndOneClearer :
    (after (step (cpu (at' .t4 tuned)))).map (·.per.rxie) = some true ∧ tuned.per.rxie = false ∧
    (after (step (cpu (at' .s1 live)))).map (·.per.rxie) = some false ∧ live.per.rxie = true ∧
    (after (step (cpu { live with main := { live.main with pos := .m1 } }))).map (·.per.rxie) = some false ∧
    (after (step (cpu { live with calls := [.stop] }))).map (·.per.rxie) = some false := by decide

theorem witness_OnlySetFmChangesTheStoredFilter :
    (after (step (cpu (told idle 0x0A0009003)))).map (·.st.filterId) = some 0x100 ∧
    (after (step { idle with sched := [.op .api 0x0A0009003] })).map (·.st.maskId) = some 0x200 ∧
    (after (step (cpu { idle with calls := [.setFm 0x900 0xA00] }))).map (·.st.maskId) = some 0x200 ∧
    idle.st.filterId = 0 ∧ idle.st.maskId = 0 := by decide

theorem witness_FramesAreForwardedInArrivalOrder :
    (BlockInv { live with sched := [.bus f1, .irq, .cpu, .user 7, .ext] ++ [] } ∧
      ∀ u ∈ [Turn.bus f1, .irq, .cpu, .user 7, .ext], loopTurn u) ∧
    ∃ t, steps 5 { live with sched := [.bus f1, .irq, .cpu, .user 7, .ext] } = .next t := by
  refine ⟨⟨blockInv_of (by decide) (by decide) (by decide), ?_⟩, goes (by decide)⟩
  intro u hu
  simp only [List.mem_cons, List.not_mem_nil, or_false] at hu
  rcases hu with rfl | rfl | rfl | rfl | rfl <;> simp [loopTurn, f1, maxLen]

theorem witness_CfgManualMatch :
    mainBusy idle = false ∧ idle.per.running = false ∧ idle.cfg.table = [e0] ++ e1 :: [] ∧
    (∀ x ∈ [e0], x.bitrate ≠ 10000) ∧ e1.bitrate = 10000 := by decide

theorem witness_CfgManualNoMatch :
    mainBusy tuned = false ∧ tuned.per.running = false ∧ (∀ x ∈ tuned.cfg.table, x.bitrate ≠ 20000) ∧
    tuned.level ≠ .dlg := by decide

theorem witness_RefusedWhileThePeripheralRuns :
    mainBusy live = false ∧ live.per.running = true ∧ live.level ≠ .dlg ∧
    (asking live).level = .dlg ∧ mainBusy (asking live) = false := by decide

theorem witness_SetFmStoresTheLowElevenBits : mainBusy live = false ∧ mainBusy (asking idle) = false := by decide

theorem witness_GetStatusReadsAndReports : opOf 0xFFFFFFFE4 = 0x4 ∧ mainBusy live = false := by decide

theorem witness_StartUnconfiguredReturnsFalse :
    mainBusy idle = false ∧ idle.level ≠ .dlg ∧ idle.per.running = false ∧
    idle.st.configured = false := by decide

theorem witness_StartConfiguredArmsTheBus :
    (turns 3 [.ext] tuned).sched = List.replicate 3 .cpu ++ [.ext] ∧ mainBusy tuned = false ∧ tuned.level ≠ .dlg ∧ tuned.per.running = false ∧
    tuned.st.configured = true ∧ tuned.main.caller ≠ .quit := by decide

/-- Each stop policy. -/
theorem witness_StopEffect :
    (turns 2 [] live).sched = List.replicate 2 .cpu ++ [] ∧ mainBusy (turns 2 [] live) = false ∧
    live.level = .api ∧ live.cfg.onStop = .flush ∧
    { live with cfg := { live.cfg with onStop := .retain } }.cfg.onStop = .retain ∧
    mainBusy { live with level := .prim } = false := by decide

theorem witness_StopKeepsStatusAndIsIdempotent :
    ((turns 4 [] live).sched = List.replicate 4 .cpu ++ [] ∧ mainBusy (turns 4 [] live) = false ∧ live.level = .api) ∧
    (∃ t, exec .stop (turns 4 [] live) = .next t) ∧ live.cfg.onStop ≠ .any := ⟨by decide, goes (by decide), by decide⟩

/-- With an arrival, a request and an interrupt turn between STOP's steps. -/
theorem witness_StopCompletesUnderEverySchedule :
    (BlockInv { live with sched := mixed ++ [.op .api 7] } ∧ (∀ u ∈ mixed, loopTurn u) ∧ 2 ≤ cpuTurns mixed ∧
      mainBusy { live with sched := mixed ++ [.op .api 7] } = false ∧ live.level = .api) ∧
    { live with level := .ext }.level = .ext :=
  ⟨⟨blockInv_of (by decide) (by decide) (by decide), mixed_ok, by decide, by decide, rfl⟩, rfl⟩

/-- Index below, at and at the end of the table; activity seen and not. -/
theorem witness_CfgAutoSteps :
    live.per.running = true ∧ idle.per.running = false ∧
    idle.cfg.table.length ≤ { idle with main := { idle.main with adIdx := 2 } }.main.adIdx ∧
    { idle with main := { idle.main with adIdx := 1 } }.main.adIdx < idle.cfg.table.length ∧
    idle.cfg.table[{ idle with main := { idle.main with adIdx := 1 } }.main.adIdx]? = some e1 ∧
    { idle with main := { idle.main with adAct := true } }.main.adAct = true ∧ idle.main.adAct = false ∧
    idle.per.rxq = [] ∧ { idle with per := { idle.per with rxq := [f1] } }.per.rxq ≠ [] := by decide

theorem witness_CfgAutoExhaustsTheTable :
    (turns 17 [] idle).sched = List.replicate (8 * idle.cfg.table.length + 1) .cpu ++ [] ∧
    mainBusy (turns 17 [] idle) = false ∧ idle.per.running = false ∧ idle.per.rxq = [] := by decide

theorem witness_CfgAutoFindsTheLiveEntry :
    idle.cfg.wf ∧ mainBusy idle = false ∧ idle.per.running = false ∧ idle.per.rxq = [] ∧ f1.wf ∧
    idle.cfg.table = [e0] ++ e1 :: [] ∧ rateOk idle.cfg e1.prescaler e1.timeSeg1 e1.timeSeg2 = true ∧
    (turns 12 [.bus f1, .cpu, .cpu, .cpu, .cpu] idle).sched =
      List.replicate (8 * [e0].length + 4) Turn.cpu ++ Turn.bus f1 :: (List.replicate 4 .cpu ++ []) := by decide

/-- A frame in the queue, with turns of every agent listed. -/
theorem witness_CfgAutoIsFooledByAStaleFrame :
    { idle with per := { idle.per with rxq := [f1] }, sched := mixed ++ [] }.sched = mixed ++ [] ∧
    (∀ u ∈ mixed, loopTurn u) ∧ 8 ≤ cpuTurns mixed ∧
    mainBusy { idle with per := { idle.per with rxq := [f1] }, sched := mixed ++ [] } = false ∧
    idle.per.running = false ∧ idle.per.rxie = false ∧ { idle.per with rxq := [f1] }.rxq ≠ [] ∧
    idle.cfg.table = e0 :: [e1] := ⟨rfl, mixed_ok, by decide, by decide, rfl, rfl, by decide, rfl⟩

theorem witness_CfgAutoCompletesUnderEverySchedule :
    BlockInv { idle with sched := mixed ++ [] } ∧ (∀ u ∈ mixed, loopTurn u) ∧
    8 * idle.cfg.table.length + 1 ≤ cpuTurns mixed ∧ mainBusy { idle with sched := mixed ++ [] } = false ∧
    idle.per.running = false :=
  ⟨blockInv_of (by decide) (by decide) (by decide), mixed_ok, by decide, by decide, rfl⟩

/-- With room, at the wrap, and one short of full. -/
theorem witness_PushStoresAtHead :
    idle.level ≠ .dlg ∧ idle.ing.active = false ∧ idle.rb.head < idle.cfg.n ∧ idle.rb.tail < idle.cfg.n ∧
    (idle.rb.head + 1) &&& (idle.cfg.n - 1) ≠ idle.rb.tail ∧ (7 + 1) &&& (idle.cfg.n - 1) ≠ 3 := by decide

theorem witness_PushOnAFullRingDropsTheNewest :
    tight.level ≠ .dlg ∧ tight.ing.active = false ∧ (tight.rb.head + 1) &&& (tight.cfg.n - 1) = tight.rb.tail := by decide

theorem witness_PopTakesFromTail :
    ((filled idle).level = .api ∧ mainBusy (filled idle) = false ∧ (filled idle).rb.head ≠ (filled idle).rb.tail ∧
      (filled idle).rb.head < (filled idle).cfg.n ∧ (filled idle).rb.tail < (filled idle).cfg.n ∧
      (filled idle).rb.slots.read (filled idle).rb.tail = some frA) ∧
    idle.rb.head = idle.rb.tail := by decide

theorem witness_ResetZeroesBothIndices :
    (filled idle).level = .api ∧ mainBusy (filled idle) = false := by decide

/-- A ring with room and frames, a full ring, an empty ring. -/
theorem witness_RingPrimitivesActOnTheHeldList :
    (DataInv (filled idle) ∧ DataInv tight ∧ DataInv idle) ∧ (filled idle).level = .api ∧
    mainBusy (filled idle) = false ∧
    (ringHeld (filled idle)).length < (filled idle).cfg.n - 1 ∧ (ringHeld tight).length = tight.cfg.n - 1 ∧
    ringHeld (filled idle) = some frA :: [some frB, some frC] ∧ ringHeld idle = [] :=
  ⟨⟨dataInv_of (by decide), dataInv_of (by decide), dataInv_of (by decide)⟩, by decide⟩

theorem witness_PushesAndPopsFollowTheBoundedQueue :
    DataInv tight ∧ tight.level = .api ∧ mainBusy tight = false ∧
    (∀ i ∈ [Instr.rbPush frB, .rbPop, .rbPop, .rbPush frC], pushOrPop i) ∧ ringHeld tight = [frA].map some := by
  refine ⟨dataInv_of (by decide), rfl, rfl, ?_, by decide⟩
  intro i hi
  simp only [List.mem_cons, List.not_mem_nil, or_false] at hi
  rcases hi with rfl | rfl | rfl | rfl
  · exact .inl ⟨frB, by decide, rfl⟩
  · exact .inr rfl
  · exact .inr rfl
  · exact .inl ⟨frC, by decide, rfl⟩

theorem witness_DisciplineBreaksAreRefused :
    { live with level := .irq }.level = .irq ∧ ((inside .i3 live).ing.active = true ∧ (inside .i3 live).level ≠ .dlg) ∧
    (at' .d6 (filled live)).main.op = some .d6 := by decide

/-- A stopped bus, a dead bit rate, a filtered frame, room in the queue, a full queue, and the frame's turn, after the dialog too. -/
theorem witness_BusRxQueuesOrLosesTheFrame :
    idle.level ≠ .dlg ∧ idle.per.running = false ∧
    rateOk { live.cfg with deadTimings := [(50, 13, 2)] } 50 13 2 = false ∧
    accept { live.cfg with rejects := [(0x100, 0x200, f1)] } 0x100 0x200 f1 = false ∧
    live.per.running = true ∧ rateOk live.cfg live.per.prescaler live.per.timeSeg1 live.per.timeSeg2 = true ∧
    accept live.cfg live.per.filterId live.per.maskId f1 = true ∧ live.per.rxq.length < live.cfg.hwqDepth ∧
    live.cfg.hwqDepth ≤ { live with per := { live.per with rxq := [f1, f2, f3] } }.per.rxq.length ∧
    { asking live with sched := [.bus frB] }.sched = .bus frB :: [] ∧ (asking live).level = .dlg ∧ frB.wf := by decide

theorem witness_InvocationEntrySavesNothing :
    (live.per.rxie = true ∧ { live with per := { live.per with rxq := [f1] } }.per.rxq ≠ [] ∧ live.ing.active = false) ∧
    ¬(live.per.rxie = true ∧ live.per.rxq ≠ [] ∧ live.ing.active = false) ∧
    { live with sched := [.irq] }.sched = .irq :: [] := by decide

theorem witness_InvocationReturnRestoresNothing :
    (cpu (inside .i6 { live with per := { live.per with rxq := [f1] } })).ing.active = true ∧
    (cpu (inside .i6 live)).ing.pos = .i6 ∧ live.per.rxie = true ∧
    { live with per := { live.per with rxq := [f1] } }.per.rxq ≠ [] := by decide

theorem witness_IngestStepsTouchNothingElse :
    (cpu (inside .i5 live)).ing.active = true ∧ (∃ t, step (cpu (inside .i5 live)) = .next t) ∧
    BlockInv (cpu (inside .i5 live)) ∧ { inside .i3 live with sched := [.irq] }.sched = .irq :: [] ∧
    (inside .i3 live).level ≠ .dlg :=
  ⟨rfl, goes (by decide), blockInv_of (by decide) (by decide) (by decide), rfl, by decide⟩

theorem witness_LostMessageTestIsMadeOnce :
    ((inside .i1 { live with per := { live.per with lost := true } }).ing.pos = .i1 ∧
      (inside .i1 { live with per := { live.per with lost := true } }).per.lost = true) ∧
    (inside .i1 live).per.lost = false ∧ (inside .i3 live).ing.pos ≠ .i1 ∧ (∃ t, isrStep (inside .i3 live) = .next t) :=
  ⟨by decide, by decide, by decide, goes (by decide)⟩

theorem witness_IngestDrainsTheHardwareQueue :
    BlockInv (turns 13 [.cpu] { filled live with per := { live.per with rxq := [f1, f2, f3], lost := true } }) ∧
    (filled live).ing.active = false ∧ (filled live).level ≠ .dlg ∧ [f1, f2, f3] = [f1, f2, f3].take live.cfg.drainBound ∧
    (turns 13 [.cpu] live).sched = List.replicate (3 * [f1, f2, f3].length + 4) .cpu ++ [.cpu] :=
  ⟨blockInv_of (by decide) (by decide) (by decide), by decide, by decide, by decide, by decide⟩

/-- DRAIN_BOUND = 2. -/
theorem witness_IngestReturnsWhateverBusDoes :
    BlockInv { live with cfg := { live.cfg with drainBound := 2 }, sched := mixed ++ [] } ∧
    (∀ u ∈ mixed, loopTurn u) ∧ 3 * 2 + 4 ≤ cpuTurns mixed ∧ live.ing.active = false ∧ live.level ≠ .dlg :=
  ⟨blockInv_of (by decide) (by decide) (by decide), mixed_ok, by decide, rfl, by decide⟩

theorem witness_DrainReadsThenClearsEachFlag :
    { live with main := { live.main with fwH := true } }.main.fwH = true ∧ live.main.fwH = false ∧
    { live with main := { live.main with fwS := true } }.main.fwS = true ∧ live.main.fwS = false := by decide

theorem witness_DrainCopiesReleasesThenForwards :
    idle.rb.head = idle.rb.tail ∧ (filled idle).rb.head ≠ (filled idle).rb.tail ∧
    { filled idle with main := { idle.main with fwT := 6 } }.main.fwT < (filled idle).cfg.n ∧
    (filled idle).rb.slots.read 6 = some frA := by decide

theorem witness_DrainReportsThenForwardsAll :
    BlockInv (turns 16 [] { filled live with ovf := ⟨true, true⟩ }) ∧
    (turns 16 [] (filled live)).sched = List.replicate (4 * occupancy (filled live) + 4) .cpu ++ [] ∧
    mainBusy (turns 16 [] { filled live with ovf := ⟨true, true⟩ }) = false ∧ (filled live).level = .api :=
  ⟨blockInv_of (by decide) (by decide) (by decide), by decide, by decide, rfl⟩

/-- DRAIN_BOUND = 1, one interrupt turn; and nothing listed. -/
theorem witness_DrainCompletesUnderEveryListedSchedule :
    (BlockInv { filled live with cfg := { live.cfg with drainBound := 1 }, sched := mixed ++ [.ext] } ∧
      (∀ u ∈ mixed, loopTurn u) ∧
      4 * occupancy (filled live) + 4 + (7 * 1 + 4) * irqTurns mixed ≤ cpuTurns mixed ∧
      mainBusy { filled live with cfg := { live.cfg with drainBound := 1 }, sched := mixed ++ [.ext] } = false ∧
      (filled live).level = .api) ∧
    (live.sched = [] ∧ mainBusy live = false) :=
  ⟨⟨blockInv_of (by decide) (by decide) (by decide), mixed_ok, by decide, by decide, rfl⟩, by decide⟩

theorem witness_QuitEntersCapturingIffConfigured :
    (mainBusy (turns 4 [] (asking tuned)) = false ∧ (turns 4 [] (asking tuned)).level = .dlg ∧
      (asking tuned).per.running = false ∧ (asking tuned).st.configured = true ∧
      (turns 4 [] (asking tuned)).sched = List.replicate 4 .cpu ++ []) ∧
    (mainBusy (asking idle) = false ∧ (asking idle).st.configured = false) ∧
    (called .quit (asking tuned)).main.caller = .quit := by decide

theorem witness_QuitOutsideTheDialogIsRefused : opOf 0xFFFFFFFF8 = 0x8 ∧ idle.level ≠ .dlg := by decide

theorem witness_NumberedRegistersReadTheirFields : 18 ≤ 18 ∧ readReg 17 live ≠ none := by decide

end Sys2Proof.Tests
end

section
/-! The step of a listed turn, the issue of a word, and the waiting of operations for MAIN (00_scope.md R8, 46 R196). -/

namespace Sys2Proof.Machine

/-! ### The next turn is the first one listed (log 1) -/

/-- The turn is consumed, then taken. -/
theorem step_listed {s : State} {u : Turn} {r : List Turn} (h : s.sched = u :: r) :
    step s = takeTurn u { s with sched := r } := by
  simp only [step, nextTurn, h]

theorem step_word {s : State} {lvl : Level} {c : PortWord} {r : List Turn} (h : s.sched = .op lvl c :: r) :
    step s = issue lvl c { s with sched := r } :=
  step_listed h

theorem step_user {s : State} {c : PortWord} {r : List Turn} (h : s.sched = .user c :: r) :
    step s = .next (userSends c { s with sched := r }) :=
  step_listed h

/-! ### The issue of a word (30_encoding.md R82, R89; log 19) -/

theorem issue_direct {lvl : Level} {c : PortWord} {i : Instr} (hl : lvl ≠ .dlg) (hd : decode c = .ok i) (s : State) :
    issue lvl c s = exec i { s with level := lvl } := by
  simp only [issue, hl, if_false, hd]

theorem issue_dialog_waiting {s : State} (c : PortWord) (h : dialogWaits s = true) :
    issue .dlg c s = dialogCommand c s := by
  simp [issue, h]

theorem issue_dialog_notWaiting {s : State} (c : PortWord) (h : dialogWaits s = false) :
    issue .dlg c s = .next (userSends c s) := by
  simp [issue, h]

/-- A word from USER that MAIN waits for; `dialogWaits` does not read the turns listed. -/
theorem step_word_dialog_waiting {s : State} {c : PortWord} {r : List Turn} (h : s.sched = .op .dlg c :: r)
    (hw : dialogWaits s = true) : step s = dialogCommand c { s with sched := r } :=
  (step_word h).trans (issue_dialog_waiting c hw)

theorem step_word_dialog_notWaiting {s : State} {c : PortWord} {r : List Turn} (h : s.sched = .op .dlg c :: r)
    (hw : dialogWaits s = false) : step s = .next (userSends c { s with sched := r }) :=
  (step_word h).trans (issue_dialog_notWaiting c hw)

/-- A word that is no operation is unrecognised input (46 R202; log 20). -/
theorem dialogCommand_error {c : PortWord} {e : DecodeError} (h : decode c = .error e) (s : State) :
    dialogCommand c s = .next (menu (readCommand c { s with level := .dlg })) := by
  simp [dialogCommand, h]

/-! ### What waits where MAIN is not free (log 12) -/

theorem mainBusy_eq_true {s : State} :
    mainBusy s = true ↔ s.main.op ≠ none ∨ s.ing.active = true ∨ s.calls ≠ [] := by
  simp [mainBusy, Option.isSome_iff_ne_none, or_assoc]

theorem unrecognised_busy {s : State} (c : PortWord) (h : mainBusy s = true) : unrecognised c s = userSends c s := by
  simp [unrecognised, h]

/-- A call from the dialog waits as USER's word. -/
theorem callMain_busy_dialog {s : State} (c : Call) (h : mainBusy s = true) (hl : s.level = .dlg) :
    callMain c s = .next (userSends (encode c.instr) s) := by
  rw [callMain_busy c h, waits, if_pos hl]

/-- Any other call waits behind the earlier ones. -/
theorem callMain_busy_direct {s : State} (c : Call) (h : mainBusy s = true) (hl : s.level ≠ .dlg) :
    callMain c s = .next { s with calls := s.calls ++ [c] } := by
  rw [callMain_busy c h, waits, if_neg hl]

/-! ### Operations of MAIN issued outside the dialog are calls -/

theorem consumerContext_of_api_or_prim {l : Level} (h : l = .api ∨ l = .prim) : consumerContext l = true := by
  obtain rfl | rfl := h <;> rfl

theorem ne_dlg_of_api_or_prim {l : Level} (h : l = .api ∨ l = .prim) : l ≠ .dlg := by
  obtain rfl | rfl := h <;> decide

theorem exec_start_direct {s : State} (hl : s.level ≠ .dlg) : exec .start s = callMain .start s :=
  if_neg hl

section
variable {s : State} (hl : s.level = .api ∨ s.level = .prim)
include hl

theorem exec_stop_consumer : exec .stop s = callMain .stop s := by
  simp [exec, execStop, ne_dlg_of_api_or_prim hl, consumerContext_of_api_or_prim hl]

theorem exec_drain_consumer : exec .drain s = callMain .drain s := by
  simp [exec, execDrain, ne_dlg_of_api_or_prim hl, consumerContext_of_api_or_prim hl]

theorem exec_rbPop_consumer (hp : popPartWay s = false) : exec .rbPop s = callMain .rbPop s := by
  simp [exec, execRbPop, ne_dlg_of_api_or_prim hl, consumerContext_of_api_or_prim hl, hp]

theorem exec_rbReset_consumer (hp : popPartWay s = false) (ha : s.ing.active = false) :
    exec .rbReset s = callMain .rbReset s := by
  simp [exec, execRbReset, ne_dlg_of_api_or_prim hl, consumerContext_of_api_or_prim hl, hp, ha]

end

/-- Whatever its operation, a word of USER for which MAIN is not free waits in `userq`: the four configuration commands as
calls, QUIT as itself, the rest as unrecognised input. -/
theorem exec_dialog_busy {s : State} (i : Instr) (h : mainBusy s = true) (hl : s.level = .dlg) :
    exec i s = .next (userSends (encode i) s) := by
  cases i with
  | cfgManual b => exact callMain_busy_dialog (.cfgManual b) h hl
  | cfgAuto v => exact callMain_busy_dialog (.cfgAuto v) h hl
  | setFm f m => exact callMain_busy_dialog (.setFm f m) h hl
  | getStatus p => exact callMain_busy_dialog (.getStatus p) h hl
  | quit => simp [exec, execQuit, hl, h]
  | start => simp [exec, execStart, hl, unrecognised_busy _ h]
  | stop => simp [exec, execStop, hl, unrecognised_busy _ h]
  | drain => simp [exec, execDrain, hl, unrecognised_busy _ h]
  | extReq => simp [exec, execExtReq, hl, unrecognised_busy _ h]
  | ingest => simp [exec, execIngest, hl, unrecognised_busy _ h]
  | rbPush f => simp [exec, execRbPush, hl, unrecognised_busy _ h]
  | rbPop => simp [exec, execRbPop, hl, unrecognised_busy _ h]
  | rbReset => simp [exec, execRbReset, hl, unrecognised_busy _ h]
  | busRx f => simp [exec, execBusRx, hl, unrecognised_busy _ h]
  | reserved0 => simp [exec, execReserved0, hl, unrecognised_busy _ h]
  | reservedF => simp [exec, execReservedF, hl, unrecognised_busy _ h]

/-- Settles O6: the listed turn is the word's issue, and the waiting clauses are `callMain` where MAIN is not free. -/
theorem stepRunsTheIssuedOperation : Obligations.StepRunsTheIssuedOperation := by
  refine ⟨fun s c r e hs hd hw => ?_, fun s lvl c r i hs hd => ⟨fun hl => ?_, ?_, ?_⟩, fun s c r hs => step_user hs,
    fun s hb => ?_⟩
  · exact (step_word_dialog_waiting hs hw).trans (dialogCommand_error hd _)
  · rw [step_word hs, issue_direct hl hd]
  · rintro rfl hw
    rw [step_word_dialog_waiting hs hw, dialogCommand_ok hd]
    simp only [dialogResumes_eq]
    rfl
  · rintro rfl hw
    exact step_word_dialog_notWaiting hs hw
  · have busy : mainBusy s = true := mainBusy_eq_true.mpr hb
    refine ⟨fun hl i => exec_dialog_busy i busy hl, fun hl => ?_, fun hl => ?_⟩
    · have waiting (c : Call) := callMain_busy_direct c busy hl
      exact ⟨fun b => waiting (.cfgManual b), fun v => waiting (.cfgAuto v), fun f m => waiting (.setFm f m),
        fun p => waiting (.getStatus p), (exec_start_direct hl).trans (waiting .start)⟩
    · have waiting (c : Call) := callMain_busy_direct c busy (ne_dlg_of_api_or_prim hl)
      exact ⟨(exec_stop_consumer hl).trans (waiting .stop), (exec_drain_consumer hl).trans (waiting .drain),
        fun hp => ⟨(exec_rbPop_consumer hl hp).trans (waiting .rbPop),
          fun ha => (exec_rbReset_consumer hl hp ha).trans (waiting .rbReset)⟩⟩

end Sys2Proof.Machine
end

section
/-! What each step can do, branch by branch: one inversion per step function of the sequencers, the calls, the loop
and the issued operations. -/

namespace Sys2Proof.Machine

/-! ### MAIN's labelled steps (41 R118, R124; 42 R131; 45 R183; 46 R201) -/

/-- Every answer of the labelled step of MAIN, with the test it was given on. -/
inductive LabelRes (s : State) : Label → Res → Prop
  | t1_running (h : s.per.running = true) : LabelRes s .t1 (.refused .peripheralRunning)
  | t1_configured (hr : s.per.running = false) (h : s.st.configured = true) : LabelRes s .t1 (.next (goto .t2 s))
  | t1_failsQuit (h : s.st.configured = false) (hq : s.main.caller = .quit) :
      LabelRes s .t1 (.next (quitFails (opReturn (returns (.bool false) s))))
  | t1_fails (h : s.st.configured = false) (hq : s.main.caller ≠ .quit) :
      LabelRes s .t1 (.next (opReturn (returns (.bool false) s)))
  | t2 : LabelRes s .t2 (.next (goto .t3 (perSetFilter s.st.filterId s.st.maskId s)))
  | t3 : LabelRes s .t3 (.next (goto .t4 (perStart s)))
  | t4_quit (hq : s.main.caller = .quit) : LabelRes s .t4 (.next (goto .q1 (returns (.bool true) (perIrqEnable s))))
  | t4_returns (hq : s.main.caller ≠ .quit) :
      LabelRes s .t4 (.next (opReturn (returns (.bool true) (perIrqEnable s))))
  | q1 : LabelRes s .q1 (.next (opReturn (setPos .m0 { s with mode := .capturing })))
  | s1 : LabelRes s .s1 (.next (goto .s2 (perIrqDisable s)))
  | s2 : LabelRes s .s2 (.next (goto .s3 (perStop s)))
  | s3 : LabelRes s .s3 (.next (opReturn (ringReset s)))
  | a0_running (h : s.per.running = true) : LabelRes s .a0 (.refused .peripheralRunning)
  | a0 (h : s.per.running = false) : LabelRes s .a0 (.next (goto .a1 (setIdx 0 s)))
  | a1_exhausted (h : s.cfg.table.length ≤ s.main.adIdx) :
      LabelRes s .a1 (.next (opReturn (returnStatus (unconfigure s))))
  | a1_probes (h : s.main.adIdx < s.cfg.table.length) : LabelRes s .a1 (.next (goto .a2 s))
  | a2 (e : BitTimingEntry) (h : s.cfg.table[s.main.adIdx]? = some e) :
      LabelRes s .a2 (.next (goto .a3 (perSetTiming e s)))
  | a2_outside (h : s.cfg.table[s.main.adIdx]? = none) : LabelRes s .a2 (.fault .indexOutsideTable)
  | a3 : LabelRes s .a3 (.next (goto .a4 (perSetFilter 0 0 s)))
  | a4 : LabelRes s .a4 (.next (goto .a5 (perStart s)))
  | a5 : LabelRes s .a5 (.next (goto .a6 s))
  | a6 : LabelRes s .a6 (.next (goto .a7 { s with main := { s.main with adAct := !s.per.rxq.isEmpty } }))
  | a7 : LabelRes s .a7 (.next (goto .a8 (perStop s)))
  | a8_found (e : BitTimingEntry) (h : s.cfg.table[s.main.adIdx]? = some e) (hact : s.main.adAct = true) :
      LabelRes s .a8 (.next (opReturn (returnStatus (configure e.bitrate s))))
  | a8_outside (h : s.cfg.table[s.main.adIdx]? = none) (hact : s.main.adAct = true) :
      LabelRes s .a8 (.fault .indexOutsideTable)
  | a8_silent (hact : s.main.adAct = false) :
      LabelRes s .a8 (.next (goto .a1 (setIdx (s.main.adIdx + 1) s)))
  | d1 : LabelRes s .d1 (.next (goto .d2 { s with main := { s.main with fwH := s.ovf.hardwareLoss } }))
  | d2_reports (h : s.main.fwH = true) :
      LabelRes s .d2 (.next (goto .d3 (emit (.diag .hwLoss) (clearHardwareLoss s))))
  | d2 (h : s.main.fwH = false) : LabelRes s .d2 (.next (goto .d3 s))
  | d3 : LabelRes s .d3 (.next (goto .d4 { s with main := { s.main with fwS := s.ovf.softwareLoss } }))
  | d4_reports (h : s.main.fwS = true) :
      LabelRes s .d4 (.next (goto .d5 (emit (.diag .swLoss) (clearSoftwareLoss s))))
  | d4 (h : s.main.fwS = false) : LabelRes s .d4 (.next (goto .d5 s))
  | d5_empty (h : s.rb.head = s.rb.tail) : LabelRes s .d5 (.next (opReturn (takeIndices s)))
  | d5_holds (h : s.rb.head ≠ s.rb.tail) : LabelRes s .d5 (.next (goto .d6 (takeIndices s)))
  | d6 (f : Frame) (h : s.rb.slots.read s.main.fwT = some f) :
      LabelRes s .d6 (.next (goto .d7 { s with main := { s.main with fwF := f } }))
  | d6_unread (e : Fault) (h : s.cfg.n ≤ s.main.fwT ∨ s.rb.slots.read s.main.fwT = none) : LabelRes s .d6 (.fault e)
  | d7 : LabelRes s .d7 (.next (goto .d8 (setTail (reduceIndex s.cfg (s.main.fwT + 1)) s)))
  | d8 : LabelRes s .d8 (.next (goto .d5 (emit (.frame s.main.fwF) s)))

theorem tableRead_cases {s : State} {i : Nat} (k : BitTimingEntry → Res) :
    (∃ e, s.cfg.table[i]? = some e ∧ tableRead s i k = k e) ∨
      (s.cfg.table[i]? = none ∧ tableRead s i k = .fault .indexOutsideTable) := by
  unfold tableRead
  split
  · exact .inl ⟨_, ‹_›, rfl⟩
  · exact .inr ⟨‹_›, rfl⟩

theorem memRead_cases {s : State} {i : Nat} (k : Frame → Res) :
    (∃ f, s.rb.slots.read i = some f ∧ memRead s i k = k f) ∨
      (∃ e, (s.cfg.n ≤ i ∨ s.rb.slots.read i = none) ∧ memRead s i k = .fault e) := by
  unfold memRead
  split
  · split
    · exact .inl ⟨_, ‹_›, rfl⟩
    · exact .inr ⟨_, .inr ‹_›, rfl⟩
  · exact .inr ⟨_, .inl (Nat.le_of_not_lt ‹_›), rfl⟩

theorem stepT1_res (s : State) : LabelRes s .t1 (stepT1 s) := by
  unfold stepT1
  split
  next h => exact .t1_running h
  next hr =>
    split
    next hc => exact .t1_configured (Bool.not_eq_true _ ▸ hr) hc
    next hc =>
      split
      next hq => exact .t1_failsQuit (Bool.not_eq_true _ ▸ hc) hq
      next hq => exact .t1_fails (Bool.not_eq_true _ ▸ hc) hq

theorem stepT4_res (s : State) : LabelRes s .t4 (stepT4 s) := by
  unfold stepT4
  split
  next hq => exact .t4_quit hq
  next hq => exact .t4_returns hq

theorem stepA0_res (s : State) : LabelRes s .a0 (stepA0 s) := by
  unfold stepA0
  split
  next h => exact .a0_running h
  next h => exact .a0 (Bool.not_eq_true _ ▸ h)

theorem stepA1_res (s : State) : LabelRes s .a1 (stepA1 s) := by
  unfold stepA1
  split
  next h => exact .a1_exhausted h
  next h => exact .a1_probes (Nat.lt_of_not_le h)

theorem stepA2_res (s : State) : LabelRes s .a2 (stepA2 s) := by
  unfold stepA2
  obtain ⟨e, he, hr⟩ | ⟨he, hr⟩ := tableRead_cases (s := s) (i := s.main.adIdx) _ <;> rw [hr]
  · exact .a2 e he
  · exact .a2_outside he

theorem stepA8_res (s : State) : LabelRes s .a8 (stepA8 s) := by
  unfold stepA8
  split
  next hact =>
    obtain ⟨e, he, hr⟩ | ⟨he, hr⟩ := tableRead_cases (s := s) (i := s.main.adIdx) _ <;> rw [hr]
    · exact .a8_found e he hact
    · exact .a8_outside he hact
  next hact => exact .a8_silent (Bool.not_eq_true _ ▸ hact)

theorem stepD2_res (s : State) : LabelRes s .d2 (stepD2 s) := by
  unfold stepD2
  split
  next h => exact .d2_reports h
  next h => exact .d2 (Bool.not_eq_true _ ▸ h)

theorem stepD4_res (s : State) : LabelRes s .d4 (stepD4 s) := by
  unfold stepD4
  split
  next h => exact .d4_reports h
  next h => exact .d4 (Bool.not_eq_true _ ▸ h)

theorem stepD5_res (s : State) : LabelRes s .d5 (stepD5 s) := by
  unfold stepD5
  split
  next h => exact .d5_empty ((ringEmpty_iff s).1 h)
  next h => exact .d5_holds (mt (ringEmpty_iff s).2 h)

theorem stepD6_res (s : State) : LabelRes s .d6 (stepD6 s) := by
  unfold stepD6
  obtain ⟨f, hf, hr⟩ | ⟨e, hf, hr⟩ := memRead_cases (s := s) (i := s.main.fwT) _ <;> rw [hr]
  · exact .d6 f hf
  · exact .d6_unread e hf

theorem labelStep_res (l : Label) (s : State) : LabelRes s l (labelStep l s) := by
  cases l with
  | t1 => exact stepT1_res s
  | t2 => exact .t2
  | t3 => exact .t3
  | t4 => exact stepT4_res s
  | q1 => exact .q1
  | s1 => exact .s1
  | s2 => exact .s2
  | s3 => exact .s3
  | a0 => exact stepA0_res s
  | a1 => exact stepA1_res s
  | a2 => exact stepA2_res s
  | a3 => exact .a3
  | a4 => exact .a4
  | a5 => exact .a5
  | a6 => exact .a6
  | a7 => exact .a7
  | a8 => exact stepA8_res s
  | d1 => exact .d1
  | d2 => exact stepD2_res s
  | d3 => exact .d3
  | d4 => exact stepD4_res s
  | d5 => exact stepD5_res s
  | d6 => exact stepD6_res s
  | d7 => exact .d7
  | d8 => exact .d8

/-! ### The Ingest Path's steps (44 R169) -/

/-- `s` after a push that found room (43 R149, R150). -/
def pushed (f : Frame) (s : State) : State :=
  { s with rb := ⟨s.rb.slots.write s.rb.head f, nextHead s, s.rb.tail⟩ }

/-- The push: reported on a full ring, else stored and published, or stopped on a head outside RING. -/
inductive PushRes (f : Frame) (s : State) : Res → Prop
  | full (h : ringFull s = true) : PushRes f s (.next (setSoftwareLoss s))
  | stores (h : ringFull s = false) : PushRes f s (.next (pushed f s))
  | outside (h : s.cfg.n ≤ s.rb.head) : PushRes f s (.fault .slotOutsideRing)

theorem ringPush_res (f : Frame) (s : State) : PushRes f s (ringPush f s) := by
  obtain ⟨h, hr⟩ | ⟨h, -, hr⟩ | ⟨-, h, hr⟩ := ringPush_cases (f := f) (s := s) rfl <;> rw [hr]
  · exact .full h
  · exact .stores h
  · exact .outside h

/-- Every answer of the Ingest Path's step. -/
inductive IsrRes (s : State) : Res → Prop
  | i0 (hp : s.ing.pos = .i0) : IsrRes s (.next (enterIngest s))
  | i1_lost (hp : s.ing.pos = .i1) (h : s.per.lost = true) :
      IsrRes s (.next (setIngPos .i2 (perLostClear (setHardwareLoss s))))
  | i1 (hp : s.ing.pos = .i1) (h : s.per.lost = false) : IsrRes s (.next (setIngPos .i2 s))
  | i2 (hp : s.ing.pos = .i2) : IsrRes s (.next (setIngPos .i3 { s with ing := { s.ing with n := 0 } }))
  | i3_done (hp : s.ing.pos = .i3) (h : s.cfg.drainBound ≤ s.ing.n ∨ s.per.rxq = []) :
      IsrRes s (.next (setIngPos .i6 s))
  | i3_more (hp : s.ing.pos = .i3) (hn : s.ing.n < s.cfg.drainBound) (hq : s.per.rxq ≠ []) :
      IsrRes s (.next (setIngPos .i4 s))
  | i4 (f : Frame) (q : List Frame) (hp : s.ing.pos = .i4) (hq : s.per.rxq = f :: q) :
      IsrRes s (.next (setIngPos .i5
        { s with per := { s.per with rxq := q }, ing := { s.ing with f := f, n := s.ing.n + 1 } }))
  | i4_empty (hp : s.ing.pos = .i4) (hq : s.per.rxq = []) : IsrRes s (.fault .queueEmpty)
  | i5_full (hp : s.ing.pos = .i5) (hf : ringFull s = true) :
      IsrRes s (.next (setIngPos .i3 { setSoftwareLoss s with ing := { s.ing with nh := nextHead s } }))
  | i5_stores (hp : s.ing.pos = .i5) (hf : ringFull s = false) :
      IsrRes s (.next (setIngPos .i3 { pushed s.ing.f s with ing := { s.ing with nh := nextHead s } }))
  | i5_outside (hp : s.ing.pos = .i5) (h : s.cfg.n ≤ s.rb.head) : IsrRes s (.fault .slotOutsideRing)
  | i6 (hp : s.ing.pos = .i6) : IsrRes s (.next (leaveIngest s))

theorem stepI3_res {s : State} (hp : s.ing.pos = .i3) : IsrRes s (stepI3 s) := by
  unfold stepI3
  split
  next h =>
    simp only [Bool.or_eq_true, decide_eq_true_eq, List.isEmpty_iff] at h
    exact .i3_done hp h
  next h =>
    simp only [Bool.or_eq_true, decide_eq_true_eq, List.isEmpty_iff, not_or, Nat.not_le] at h
    exact .i3_more hp h.1 h.2

theorem stepI4_res {s : State} (hp : s.ing.pos = .i4) : IsrRes s (stepI4 s) := by
  unfold stepI4 perRxqPop
  split
  next hq => exact .i4_empty hp hq
  next f q hq => exact .i4 f q hp hq

theorem stepI5_res {s : State} (hp : s.ing.pos = .i5) : IsrRes s (stepI5 s) := by
  unfold stepI5
  have push := ringPush_res s.ing.f s
  generalize ringPush s.ing.f s = r at push
  cases push with
  | full h => exact .i5_full hp h
  | stores h => exact .i5_stores hp h
  | outside h => exact .i5_outside hp h

theorem isrStep_res (s : State) : IsrRes s (isrStep s) := by
  unfold isrStep
  split
  next hp => exact .i0 hp
  next hp =>
    unfold stepI1
    split
    next hl => exact .i1_lost hp hl
    next hl => exact .i1 hp (Bool.not_eq_true _ ▸ hl)
  next hp => exact .i2 hp
  next hp => exact stepI3_res hp
  next hp => exact stepI4_res hp
  next hp => exact stepI5_res hp
  next hp => exact .i6 hp

/-! ### Calls (30 R82; log 15) -/

/-- The label a call begins with; none for the operations of one step. -/
def Call.firstLabel (c : Call) : Option Label :=
  match c with
  | .cfgAuto _ => some .a0
  | .start => some .t1
  | .stop => some .s1
  | .drain => some .d1
  | .cfgManual _ | .setFm _ _ | .getStatus _ | .rbPop | .rbReset => none

/-- Every answer of the first step of a call. -/
inductive CallRes (who : Caller) (s : State) : Call → Res → Prop
  | running (b : U32) (h : s.per.running = true) : CallRes who s (.cfgManual b) (.refused .peripheralRunning)
  | found (b : U32) (e : BitTimingEntry) (hr : s.per.running = false) (he : findEntry s.cfg.table b = some e) :
      CallRes who s (.cfgManual b) (.next (returnStatus (configure e.bitrate (perSetTiming e s))))
  | missing (b : U32) (hr : s.per.running = false) (he : findEntry s.cfg.table b = none) :
      CallRes who s (.cfgManual b) (.next (returnStatus (unconfigure s)))
  | stores (f m : U16) :
      CallRes who s (.setFm f m) (.next (returnStatus (storeFilter (truncId f) (truncId m) s)))
  | prints : CallRes who s (.getStatus true) (.next (returnStatus (emit (.status s.st) s)))
  | answers : CallRes who s (.getStatus false) (.next (returnStatus s))
  | begins (c : Call) (l : Label) (hl : c.firstLabel = some l) (r : Res) (h : LabelRes (goto l (calledBy who s)) l r) :
      CallRes who s c r
  | popsNone (h : s.rb.head = s.rb.tail) : CallRes who s .rbPop (.next (returns (.frame none) s))
  | pops (f : Frame) (hne : s.rb.head ≠ s.rb.tail) (h : s.rb.slots.read s.rb.tail = some f) :
      CallRes who s .rbPop
        (.next (returns (.frame (some f)) (setTail (reduceIndex s.cfg (s.rb.tail + 1)) s)))
  | popStops (e : Fault) (hne : s.rb.head ≠ s.rb.tail)
      (h : s.cfg.n ≤ s.rb.tail ∨ s.rb.slots.read s.rb.tail = none) : CallRes who s .rbPop (.fault e)
  | resets : CallRes who s .rbReset (.next (ringReset s))

theorem stepCfgManual_res (who : Caller) (b : U32) (s : State) : CallRes who s (.cfgManual b) (stepCfgManual b s) := by
  unfold stepCfgManual
  split
  next h => exact .running b h
  next h =>
    split
    next e he => exact .found b e (Bool.not_eq_true _ ▸ h) he
    next he => exact .missing b (Bool.not_eq_true _ ▸ h) he

theorem ringPop_res (who : Caller) (s : State) : CallRes who s .rbPop (ringPop s) := by
  have ne (he : ringEmpty s = false) : s.rb.head ≠ s.rb.tail := fun h => by simp [ringEmpty, h] at he
  obtain ⟨he, hr⟩ | ⟨f, he, -, hf, hr⟩ | ⟨he, -, hs, hr⟩ | ⟨he, hs, hr⟩ := ringPop_cases (s := s) rfl <;> rw [hr]
  · exact .popsNone ((ringEmpty_iff s).1 he)
  · exact .pops f (ne he) hf
  · exact .popStops _ (ne he) (.inr hs)
  · exact .popStops _ (ne he) (.inl hs)

theorem callStep_res (who : Caller) (c : Call) (s : State) : CallRes who s c (callStep who c s) := by
  have begun (l : Label) (hl : c.firstLabel = some l) : CallRes who s c (beginOp who l s) :=
    .begins c l hl _ (labelStep_res _ _)
  cases c with
  | cfgManual b => exact stepCfgManual_res who b s
  | cfgAuto v => exact begun .a0 rfl
  | setFm f m => exact .stores f m
  | getStatus p =>
    cases p with
    | true => exact .prints
    | false => exact .answers
  | start => exact begun .t1 rfl
  | stop => exact begun .s1 rfl
  | drain => exact begun .d1 rfl
  | rbPop => exact ringPop_res who s
  | rbReset => exact .resets

/-- QUIT begins with START's first step (46 R201). -/
theorem beginQuit_res (s : State) : LabelRes (goto .t1 (calledBy .quit s)) .t1 (beginQuit s) := labelStep_res .t1 _

theorem callStep_next {who : Caller} {c : Call} {s t : State} (h : callStep who c s = .next t) :
    CallRes who s c (.next t) :=
  h ▸ callStep_res who c s

theorem beginQuit_next {s t : State} (h : beginQuit s = .next t) :
    LabelRes (goto .t1 (calledBy .quit s)) .t1 (.next t) :=
  h ▸ beginQuit_res s

/-! ### The mainline loop (46 R196) -/

/-- The return of an operation moves `main.pos` at most. -/
theorem advance_eq (s : State) : ∃ p, advance s = setPos p s := by
  unfold advance
  split
  · exact ⟨s.main.pos, rfl⟩
  · split
    · exact ⟨.m2, rfl⟩
    · exact ⟨.m2, rfl⟩
    · exact ⟨.m0, rfl⟩
    · exact ⟨s.main.pos, rfl⟩
    · exact ⟨s.main.pos, rfl⟩

/-- The dialog's commands but QUIT (46 R198). -/
def dialogCall (c : Call) : Bool :=
  match c with
  | .cfgManual _ | .cfgAuto _ | .setFm _ _ | .getStatus _ => true
  | .start | .stop | .drain | .rbPop | .rbReset => false

/-- What the loop calls at each position: STOP at M1, the command read at M3, DRAIN at M4. -/
inductive LoopCalls (s : State) : Call → Prop
  | m1 (hp : s.main.pos = .m1) : LoopCalls s .stop
  | m3 (c : Call) (hp : s.main.pos = .m3) (hd : decode s.main.cmd = .ok c.instr) (hc : dialogCall c = true) :
      LoopCalls s c
  | m4 (hp : s.main.pos = .m4) : LoopCalls s .drain

/-- Every answer of the loop: at M0 and M2 it moves, at M1, M3 and M4 it calls, at M3 it may show the menu. -/
inductive LoopRes (s : State) : Res → Prop
  | configuring (hp : s.main.pos = .m0) (hm : s.mode = .configuring) : LoopRes s (.next (setPos .m1 s))
  | capturing (hp : s.main.pos = .m0) (hm : s.mode = .capturing) : LoopRes s (.next (setPos .m4 s))
  | blocks (hp : s.main.pos = .m2) (hu : s.userq = []) : LoopRes s (.next s)
  | reads (c : PortWord) (q : List PortWord) (hp : s.main.pos = .m2) (hu : s.userq = c :: q) :
      LoopRes s (.next (readCommand c { s with userq := q }))
  | menu (hp : s.main.pos = .m3) : LoopRes s (.next (menu { s with level := .dlg }))
  | calls (c : Call) (lvl : Level) (hc : LoopCalls s c) (r : Res) (h : loopCall c { s with level := lvl } = r) :
      LoopRes s r
  | quits (hp : s.main.pos = .m3) (hd : decode s.main.cmd = .ok .quit) (r : Res)
      (h : beginQuit { s with level := .dlg } = r) : LoopRes s r

theorem stepM3_res {s : State} (hp : s.main.pos = .m3) : LoopRes s (stepM3 s) := by
  unfold stepM3
  cases hd : decode s.main.cmd with
  | error e => exact .menu hp
  | ok i =>
    cases i with
    | cfgManual b => exact .calls (.cfgManual b) .dlg (.m3 _ hp hd rfl) _ rfl
    | cfgAuto v => exact .calls (.cfgAuto v) .dlg (.m3 _ hp hd rfl) _ rfl
    | setFm f m => exact .calls (.setFm f m) .dlg (.m3 _ hp hd rfl) _ rfl
    | getStatus p => exact .calls (.getStatus p) .dlg (.m3 _ hp hd rfl) _ rfl
    | quit => exact .quits hp hd _ rfl
    | _ => exact .menu hp

theorem loopStep_res (s : State) : LoopRes s (loopStep s) := by
  unfold loopStep
  split
  next hp =>
    cases hm : s.mode with
    | configuring => simpa only [stepM0, hm] using .configuring hp hm
    | capturing => simpa only [stepM0, hm] using .capturing hp hm
  next hp => exact .calls .stop s.level (.m1 hp) _ rfl
  next hp =>
    unfold stepM2
    split
    next hu => exact .blocks hp hu
    next c q hu => exact .reads c q hp hu
  next hp => exact stepM3_res hp
  next hp => exact .calls .drain s.level (.m4 hp) _ rfl

theorem loopCall_next {c : Call} {s t : State} (h : loopCall c s = .next t) :
    ∃ v p, CallRes .loop s c (.next v) ∧ t = setPos p v := by
  obtain ⟨v, hv, ht⟩ := andThen_eq_next.1 h
  obtain ⟨p, hp⟩ := advance_eq v
  rw [hp] at ht
  cases ht
  exact ⟨v, p, callStep_next hv, rfl⟩

theorem goOn_next {s t : State} {l : Label} (ho : s.main.op = some l) (h : goOn s = .next t) :
    ∃ v p, LabelRes s l (.next v) ∧ t = setPos p v := by
  obtain ⟨v, hv, ht⟩ := andThen_eq_next.1 h
  simp only [opStep, ho] at hv
  obtain ⟨p, hp⟩ := advance_eq v
  split at ht
  · rw [hp] at ht
    cases ht
    exact ⟨v, p, hv ▸ labelStep_res l s, rfl⟩
  · cases ht
    exact ⟨t, t.main.pos, hv ▸ labelStep_res l s, rfl⟩

/-- What MAIN's step does where it goes on: a labelled step, a call that waited, or the loop. -/
inductive MainMoves (s t : State) : Prop
  | inside (l : Label) (v : State) (p : MainPos) (ho : s.main.op = some l) (h : LabelRes s l (.next v))
      (ht : t = setPos p v)
  | waited (c : Call) (q : List Call) (ho : s.main.op = none) (hc : s.calls = c :: q)
      (h : CallRes .direct { s with calls := q } c (.next t))
  | calls (c : Call) (lvl : Level) (v : State) (p : MainPos) (ho : s.main.op = none) (hc : s.calls = [])
      (hl : LoopCalls s c) (h : CallRes .loop { s with level := lvl } c (.next v)) (ht : t = setPos p v)
  | quits (ho : s.main.op = none)
      (h : LabelRes (goto .t1 (calledBy .quit { s with level := .dlg })) .t1 (.next t))
  | moves (p : MainPos) (c : PortWord) (q : List PortWord) (lvl : Level) (o : List Event)
      (ht : t = { s with main := { s.main with pos := p, cmd := c }, userq := q, level := lvl, out := o })

theorem loopStep_moves {s t : State} (ho : s.main.op = none) (hc : s.calls = []) (h : loopStep s = .next t) :
    MainMoves s t := by
  cases h ▸ loopStep_res s with
  | configuring => exact .moves .m1 s.main.cmd s.userq s.level s.out rfl
  | capturing => exact .moves .m4 s.main.cmd s.userq s.level s.out rfl
  | blocks => exact .moves s.main.pos s.main.cmd s.userq s.level s.out rfl
  | reads c q => exact .moves .m3 c q s.level s.out rfl
  | menu => exact .moves .m2 s.main.cmd s.userq .dlg _ rfl
  | calls c lvl hl _ h =>
    obtain ⟨v, p, hv, ht⟩ := loopCall_next h
    exact .calls c lvl v p ho hc hl hv ht
  | quits _ _ _ h => exact .quits ho (beginQuit_next h)

theorem mainStep_moves {s t : State} (h : mainStep s = .next t) : MainMoves s t := by
  unfold mainStep at h
  cases ho : s.main.op with
  | some l =>
    simp only [ho, Option.isSome_some, if_true] at h
    obtain ⟨v, p, hv, ht⟩ := goOn_next ho h
    exact .inside l v p ho hv ht
  | none =>
    simp only [ho, Option.isSome_none, Bool.false_eq_true, if_false] at h
    split at h
    next c q hc => exact .waited c q ho hc (callStep_next h)
    next hc => exact loopStep_moves ho hc h

/-! ### Issued operations (30 R82) -/

/-- Every answer of an issued operation: it waits, is called, is another agent's step, or is refused. -/
inductive ExecRes (s : State) : Instr → Res → Prop
  | sends (i : Instr) (c : PortWord) (hl : s.level = .dlg) (hb : mainBusy s = true) :
      ExecRes s i (.next (userSends c s))
  | queues (c : Call) (hl : s.level ≠ .dlg) (hb : mainBusy s = true) :
      ExecRes s c.instr (.next { s with calls := s.calls ++ [c] })
  | menu (i : Instr) (hl : s.level = .dlg) (hb : mainBusy s = false) : ExecRes s i (.next (menu s))
  | calls (c : Call) (hb : mainBusy s = false) (r : Res)
      (h : andThen (callStep (callerAt s.level) c s) mainGoesOn = r) : ExecRes s c.instr r
  | quits (hl : s.level = .dlg) (hb : mainBusy s = false) (r : Res) (h : andThen (beginQuit s) mainGoesOn = r) :
      ExecRes s .quit r
  | requests : ExecRes s .extReq (.next (extRequest s))
  | ingests (ha : s.ing.active = false) (r : Res) (h : runIngest s = r) : ExecRes s .ingest r
  | pushes (f : Frame) (r : Res) (h : andThen (ringPush f s) (fun t => .next (returns (.bool (!ringFull s)) t)) = r) :
      ExecRes s (.rbPush f) r
  | arrives (f : Frame) : ExecRes s (.busRx f) (.next (busArrives f s))
  | refuses (i : Instr) (e : Refusal) : ExecRes s i (.refused e)

theorem unrecognised_res {s : State} (i : Instr) (c : PortWord) (hl : s.level = .dlg) :
    ExecRes s i (.next (unrecognised c s)) := by
  obtain ⟨hb, h⟩ | ⟨hb, h⟩ := unrecognised_cases c s <;> rw [h]
  · exact .sends i c hl hb
  · exact .menu i hl hb

theorem callMain_res (c : Call) (s : State) : ExecRes s c.instr (callMain c s) := by
  cases hb : mainBusy s with
  | false => exact .calls c hb _ (callMain_free c hb).symm
  | true =>
    rw [callMain_busy c hb]
    obtain ⟨hl, h⟩ | ⟨hl, h⟩ := waits_cases c s <;> rw [h]
    · exact .sends _ _ hl hb
    · exact .queues c hl hb

/-- Read by the dialog an operation that is no command is unrecognised; at another level it is `r`. -/
theorem outsideDialog_res {i : Instr} {s : State} {r : Res} (c : PortWord) (h : ExecRes s i r) :
    ExecRes s i (if s.level = .dlg then .next (unrecognised c s) else r) := by
  split
  next hl => exact unrecognised_res i c hl
  next => exact h

/-- An operation is refused where it breaks the discipline (log 13), else it is `r`. -/
theorem disciplined_res {i : Instr} {s : State} {r : Res} {p : Prop} [Decidable p] (h : ¬p → ExecRes s i r) :
    ExecRes s i (if p then .refused .discipline else r) := by
  split
  · exact .refuses i _
  next hp => exact h hp

theorem execQuit_res (s : State) : ExecRes s .quit (execQuit s) := by
  unfold execQuit
  split
  next hl =>
    split
    next hb => exact .sends _ _ hl hb
    next hb => exact .quits hl (Bool.not_eq_true _ ▸ hb) _ rfl
  next => exact .refuses _ _

theorem exec_res (i : Instr) (s : State) : ExecRes s i (exec i s) := by
  cases i with
  | cfgManual b => exact callMain_res (.cfgManual b) s
  | cfgAuto v => exact callMain_res (.cfgAuto v) s
  | setFm f m => exact callMain_res (.setFm f m) s
  | getStatus p => exact callMain_res (.getStatus p) s
  | start => exact outsideDialog_res _ (callMain_res .start s)
  | stop => exact outsideDialog_res _ (disciplined_res fun _ => callMain_res .stop s)
  | drain => exact outsideDialog_res _ (disciplined_res fun _ => callMain_res .drain s)
  | quit => exact execQuit_res s
  | extReq => exact outsideDialog_res _ .requests
  | ingest => exact outsideDialog_res _ (disciplined_res fun ha => .ingests (Bool.not_eq_true _ ▸ ha) _ rfl)
  | rbPush f => exact outsideDialog_res _ (disciplined_res fun _ => .pushes f _ rfl)
  | rbPop => exact outsideDialog_res _ (disciplined_res fun _ => callMain_res .rbPop s)
  | rbReset => exact outsideDialog_res _ (disciplined_res fun _ => callMain_res .rbReset s)
  | busRx f => exact outsideDialog_res _ (.arrives f)
  | reserved0 => exact outsideDialog_res _ (.refuses _ _)
  | reservedF => exact outsideDialog_res _ (.refuses _ _)

/-- An F108 word that decodes carries a Frame (30 R89). -/
theorem decodeFrameOp_ok {mk : Frame → Instr} {c : PortWord} {i : Instr} (h : decodeFrameOp mk c = .ok i) :
    ∃ f : Frame, f.wf ∧ i = mk f := by
  unfold decodeFrameOp at h
  split at h
  next hf =>
    cases h
    exact ⟨_, hf, rfl⟩
  next => cases h

theorem decode_wf {c : PortWord} {i : Instr} (h : decode c = .ok i) : i.wf := by
  unfold decode at h
  split at h
  case h_12 | h_15 =>
    obtain ⟨f, hf, rfl⟩ := decodeFrameOp_ok h
    exact hf
  all_goals
    cases h
    trivial

/-! ### What the steps leave unchanged -/

section
variable {s t : State} {l : Label} {who : Caller} {c : Call}

theorem LabelRes.sched (h : LabelRes s l (.next t)) : t.sched = s.sched := by
  cases h <;> rfl

/-- The stored filter and mask. -/
def storedFilter (s : State) : U16 × U16 := (s.st.filterId, s.st.maskId)

theorem LabelRes.filter (h : LabelRes s l (.next t)) : storedFilter t = storedFilter s := by
  cases h <;> rfl

/-- Only QUIT's write changes the mode (46 R201). -/
theorem LabelRes.mode (h : LabelRes s l (.next t)) :
    t.mode = s.mode ∨ (l = .q1 ∧ t = opReturn (setPos .m0 { s with mode := .capturing })) := by
  cases h with
  | q1 => exact .inr ⟨rfl, rfl⟩
  | _ => exact .inl rfl

/-- Only START's last step and STOP's first write the interrupt enable (10 R37). -/
theorem LabelRes.rxie (h : LabelRes s l (.next t)) :
    t.per.rxie = s.per.rxie ∨ (l = .t4 ∧ t.per.rxie = true) ∨
      (l = .s1 ∧ t.per.rxie = false ∧ t.main.op = some .s2) := by
  cases h with
  | t4_quit | t4_returns => exact .inr (.inl ⟨rfl, rfl⟩)
  | s1 => exact .inr (.inr ⟨rfl, rfl, rfl⟩)
  | _ => exact .inl rfl

/-- Only d2 and d4 write an overflow flag: each clears its own and emits its diagnostic (10 R28 to R30). -/
theorem LabelRes.ovf (h : LabelRes s l (.next t)) :
    t.ovf = s.ovf ∨
      (l = .d2 ∧ t.ovf = { s.ovf with hardwareLoss := false } ∧ t.out = s.out ++ [.diag .hwLoss]) ∨
      (l = .d4 ∧ t.ovf = { s.ovf with softwareLoss := false } ∧ t.out = s.out ++ [.diag .swLoss]) := by
  cases h with
  | d2_reports => exact .inr (.inl ⟨rfl, rfl, rfl⟩)
  | d4_reports => exact .inr (.inr ⟨rfl, rfl, rfl⟩)
  | _ => exact .inl rfl

theorem Call.firstLabel_cases (h : c.firstLabel = some l) :
    l = .a0 ∨ l = .t1 ∨ l = .d1 ∨ (c = .stop ∧ l = .s1) := by
  cases c <;> cases h <;> simp

theorem CallRes.sched (h : CallRes who s c (.next t)) : t.sched = s.sched := by
  cases h with
  | begins _ _ _ _ h => exact h.sched
  | _ => rfl

/-- Only SET_FM changes the stored filter or mask (10 R19, R20). -/
theorem CallRes.filter (h : CallRes who s c (.next t)) :
    storedFilter t = storedFilter s ∨ ∃ f m, c = .setFm f m := by
  cases h with
  | begins _ _ _ _ h => exact .inl h.filter
  | stores f m => exact .inr ⟨f, m, rfl⟩
  | _ => exact .inl rfl

theorem CallRes.mode (h : CallRes who s c (.next t)) : t.mode = s.mode := by
  cases h with
  | begins _ l hl _ h =>
    obtain h | ⟨rfl, -⟩ := h.mode
    · exact h
    · simpa using Call.firstLabel_cases hl
  | _ => rfl

theorem CallRes.ovf (h : CallRes who s c (.next t)) : t.ovf = s.ovf := by
  cases h with
  | begins _ l hl _ h =>
    obtain h | ⟨rfl, -⟩ | ⟨rfl, -⟩ := h.ovf
    · exact h
    · simpa using Call.firstLabel_cases hl
    · simpa using Call.firstLabel_cases hl
  | _ => rfl

/-- A call that writes the interrupt enable is STOP, whose first step clears it. -/
theorem CallRes.rxie (h : CallRes who s c (.next t)) :
    t.per.rxie = s.per.rxie ∨ (c = .stop ∧ t.per.rxie = false ∧ t.main.op = some .s2) := by
  cases h with
  | begins _ l hl _ h =>
    obtain h | ⟨rfl, -⟩ | ⟨rfl, hx⟩ := h.rxie
    · exact .inl h
    · simpa using Call.firstLabel_cases hl
    · exact .inr ⟨by simpa using Call.firstLabel_cases hl, hx⟩
  | _ => exact .inl rfl

theorem IsrRes.keeps (h : IsrRes s (.next t)) :
    t.sched = s.sched ∧ t.st = s.st ∧ t.mode = s.mode ∧ t.per.rxie = s.per.rxie ∧ t.main = s.main := by
  cases h <;> exact ⟨rfl, rfl, rfl, rfl, rfl⟩

/-- Only i1 and i5 write an overflow flag: on `per.lost`, which is cleared, and on a full ring, which stays
(44 R170, R172). -/
theorem IsrRes.ovf (h : IsrRes s (.next t)) :
    t.ovf = s.ovf ∨
      (s.ing.pos = .i1 ∧ s.per.lost = true ∧ t.per.lost = false ∧ t.ovf = { s.ovf with hardwareLoss := true }) ∨
      (s.ing.pos = .i5 ∧ ringFull s = true ∧ t.rb = s.rb ∧ t.ovf = { s.ovf with softwareLoss := true }) := by
  cases h with
  | i1_lost hp hl => exact .inr (.inl ⟨hp, hl, rfl, rfl⟩)
  | i5_full hp hf => exact .inr (.inr ⟨hp, hf, rfl, rfl⟩)
  | _ => exact .inl rfl

theorem busArrives_keeps (f : Frame) (s : State) :
    (busArrives f s).sched = s.sched ∧ (busArrives f s).st = s.st ∧ (busArrives f s).mode = s.mode ∧
      (busArrives f s).per.rxie = s.per.rxie ∧ (busArrives f s).main = s.main ∧ (busArrives f s).ovf = s.ovf := by
  obtain h | ⟨-, -, h⟩ | ⟨-, -, h⟩ := busArrives_cases f s <;> rw [h] <;> exact ⟨rfl, rfl, rfl, rfl, rfl, rfl⟩

/-- Of the other agents only EXT writes what MAIN and the Ingest Path decide on: the mode. -/
theorem envTurn_keeps {u : Turn} (h : envTurn u s = .next t) :
    t.sched = s.sched ∧ t.st = s.st ∧ (t.mode = s.mode ∨ u = .ext ∧ t.mode = .configuring) ∧
      t.per.rxie = s.per.rxie ∧ t.main = s.main ∧ t.ovf = s.ovf := by
  obtain ⟨-, rfl⟩ | ⟨f, -, -, rfl⟩ | ⟨rfl, rfl⟩ | ⟨c, -, rfl⟩ | rfl := envTurn_cases h
  · exact ⟨rfl, rfl, .inl rfl, rfl, rfl, rfl⟩
  · obtain ⟨h1, h2, h3, h4, h5, h6⟩ := busArrives_keeps f s
    exact ⟨h1, h2, .inl h3, h4, h5, h6⟩
  · exact ⟨rfl, rfl, .inr ⟨rfl, rfl⟩, rfl, rfl, rfl⟩
  · exact ⟨rfl, rfl, .inl rfl, rfl, rfl, rfl⟩
  · exact ⟨rfl, rfl, .inl rfl, rfl, rfl, rfl⟩

end

/-! ### A turn, and a turn inside an operation -/

/-- What a turn between the steps of an operation does where it goes on. -/
inductive InsideMoves (s t : State) : Turn → Prop
  | ingest (ha : s.ing.active = true) (h : IsrRes s (.next t)) : InsideMoves s t .cpu
  | label (l : Label) (ha : s.ing.active = false) (ho : s.main.op = some l) (h : LabelRes s l (.next t)) :
      InsideMoves s t .cpu
  | idle (ht : t = s) : InsideMoves s t .cpu
  | env (u : Turn) (h : envTurn u s = .next t) : InsideMoves s t u

theorem turnInside_moves {u : Turn} {s t : State} (h : turnInside u s = .next t) : InsideMoves s t u := by
  obtain ⟨rfl, hc⟩ | ⟨-, he⟩ := turnInside_cases h
  · unfold cpuStep at hc
    split at hc
    next ha => exact .ingest ha (hc ▸ isrStep_res s)
    next ha =>
      unfold opStep at hc
      split at hc
      next l ho => exact .label l (Bool.not_eq_true _ ▸ ha) ho (hc ▸ labelStep_res l s)
      next =>
        cases hc
        exact .idle rfl
  · exact .env u he

/-- What the issue of a word does where it goes on: it waits, shows the menu, or runs its operation, which may leave
MAIN at another position (log 19). -/
inductive IssueMoves (s t : State) (lvl : Level) (c : PortWord) : Prop
  | sends (ht : t = userSends c s)
  | menu (ht : t = menu (readCommand c { s with level := .dlg }))
  | runs (i : Instr) (p q : MainPos) (w : PortWord) (v : State) (hd : decode c = .ok i)
      (h : ExecRes { s with level := lvl, main := { s.main with pos := p, cmd := w } } i (.next v))
      (ht : t = setPos q v)

theorem issue_moves {lvl : Level} {c : PortWord} {s t : State} (h : issue lvl c s = .next t) :
    IssueMoves s t lvl c := by
  unfold issue at h
  split at h
  next hl =>
    subst hl
    split at h
    · cases hd : decode c with
      | error e =>
        rw [dialogCommand_error hd] at h
        cases h
        exact .menu rfl
      | ok i =>
        rw [dialogCommand_ok hd] at h
        obtain ⟨v, hv, ht⟩ := andThen_eq_next.1 h
        rw [dialogResumes_eq] at ht
        cases ht
        exact .runs i .m3 _ c v hd (hv ▸ exec_res i _) rfl
    · cases h
      exact .sends rfl
  next =>
    cases hd : decode c with
    | error e => simp [hd] at h
    | ok i =>
      simp only [hd] at h
      exact .runs i s.main.pos t.main.pos s.main.cmd t hd (h ▸ exec_res i _) rfl

/-- What a turn does where it goes on. -/
inductive TurnMoves (s t : State) : Turn → Prop
  | ingest (ha : s.ing.active = true) (h : IsrRes s (.next t)) : TurnMoves s t .cpu
  | main (ha : s.ing.active = false) (h : MainMoves s t) : TurnMoves s t .cpu
  | env (u : Turn) (h : envTurn u s = .next t) : TurnMoves s t u
  | issued (lvl : Level) (c : PortWord) (h : IssueMoves s t lvl c) : TurnMoves s t (.op lvl c)

theorem takeTurn_moves {u : Turn} {s t : State} (h : takeTurn u s = .next t) : TurnMoves s t u := by
  cases u with
  | cpu =>
    simp only [takeTurn] at h
    split at h
    next ha => exact .ingest ha (h ▸ isrStep_res s)
    next ha => exact .main (Bool.not_eq_true _ ▸ ha) (mainStep_moves h)
  | op lvl c => exact .issued lvl c (issue_moves h)
  | irq => exact .env _ h
  | bus f => exact .env _ h
  | ext => exact .env _ h
  | user c => exact .env _ h

theorem step_moves {u : Turn} {r : List Turn} {s t : State} (hs : s.sched = u :: r) (h : step s = .next t) :
    TurnMoves { s with sched := r } t u :=
  takeTurn_moves (step_listed hs ▸ h)

end Sys2Proof.Machine
end

section
/-! `BlockInv` under each operation on the state: one rule per operation, proved once. -/

namespace Sys2Proof.Machine

/-! ### What `BlockInv` reads -/

/-- `s` with every element `BlockInv` does not read at a fixed value. -/
def readByInv (s : State) : State :=
  { s with
    ovf := ⟨false, false⟩
    mode := .configuring
    per := { s.per with lost := false }
    main := { s.main with
      pos := .m0, caller := .direct, adAct := false, fwH := false, fwS := false, fwHd := 0, cmd := 0 }
    ing := { s.ing with nh := 0 }
    ret := .none
    level := .api
    userq := []
    calls := []
    sched := []
    drawn := 0 }

theorem blockInv_readByInv (s : State) : BlockInv (readByInv s) ↔ BlockInv s :=
  ⟨fun h => ⟨{ h.data with }, { h.control with }⟩, fun h => ⟨{ h.data with }, { h.control with }⟩⟩

/-- A change of elements `BlockInv` does not read keeps it. -/
theorem BlockInv.of_same {s t : State} (h : BlockInv s) (same : readByInv t = readByInv s) : BlockInv t :=
  (blockInv_readByInv t).1 (same ▸ (blockInv_readByInv s).2 h)

/-- The timing registers hold an entry of TABLE with the stored bitrate (`INV_CFG`, 41 R122). -/
def tunedToStored (s : State) : Prop := ∃ e ∈ s.cfg.table, e.bitrate = s.st.bitrate ∧ timingIs e s

/-- What `ControlInv` says where MAIN is at label `l`. -/
def AtLabel (l : Label) (s : State) : Prop :=
  match l with
  | .t1 | .s1 | .a0 | .d1 | .d2 | .d3 | .d4 | .d5 | .d8 => True
  | .t2 | .t3 => s.st.configured = true
  | .t4 => s.st.configured = true ∧ s.per.running = true
  | .q1 => s.per.rxie = true
  | .s2 | .s3 | .a1 => s.per.rxie = false
  | .a2 => s.per.rxie = false ∧ ∃ e, s.cfg.table[s.main.adIdx]? = some e
  | .a3 | .a4 | .a5 | .a6 | .a7 | .a8 =>
    s.per.rxie = false ∧ ∃ e, s.cfg.table[s.main.adIdx]? = some e ∧ timingIs e s
  | .d6 => s.main.fwT = s.rb.tail ∧ s.rb.head ≠ s.rb.tail
  | .d7 => (s.main.fwT = s.rb.tail ∧ s.rb.head ≠ s.rb.tail) ∧ s.rb.slots.read s.rb.tail = some s.main.fwF

theorem ControlInv.atLabel {s : State} {l : Label} (h : ControlInv s) (ho : s.main.op = some l) : AtLabel l s := by
  have off := h.disarmed l ho
  have probe := h.probe l ho
  cases l with
  | t1 | s1 | a0 | d1 | d2 | d3 | d4 | d5 | d8 => trivial
  | t2 => exact h.starting.1 (.inl ho)
  | t3 => exact h.starting.1 (.inr (.inl ho))
  | t4 => exact ⟨h.starting.1 (.inr (.inr ho)), h.starting.2.1 ho⟩
  | q1 => exact h.starting.2.2 ho
  | s2 | s3 | a1 => exact off (by decide)
  | a2 =>
    obtain ⟨e, he, -⟩ := probe (by decide)
    exact ⟨off (by decide), e, he⟩
  | a3 | a4 | a5 | a6 | a7 | a8 =>
    obtain ⟨e, he, ht⟩ := probe (by decide)
    exact ⟨off (by decide), e, he, ht rfl⟩
  | d6 => exact h.popping (by simp [popPartWay, ho])
  | d7 => exact ⟨h.popping (by simp [popPartWay, ho]), h.copied ho⟩

theorem popPartWay_iff {s : State} : popPartWay s = true ↔ s.main.op = some .d6 ∨ s.main.op = some .d7 := by
  simp [popPartWay]

/-- `ControlInv`, position by position: what holds wherever MAIN is, and what its label adds. -/
theorem ControlInv.of_atLabel {s : State}
    (ingest : s.ing.active = true → s.ing.pos = .i4 → s.ing.n < s.cfg.drainBound ∧ s.per.rxq ≠ [])
    (armed : s.per.rxie = true → s.per.running = true ∧ s.st.configured = true)
    (timing : s.st.configured = true → probing s = false → tunedToStored s)
    (label : ∀ l, s.main.op = some l → AtLabel l s) : ControlInv s where
  ingest := ingest
  armed := armed
  timing := timing
  starting := by
    refine ⟨?_, fun h => (label _ h).2, label _⟩
    rintro (h | h | h)
    · exact label _ h
    · exact label _ h
    · exact (label _ h).1
  disarmed l hl hd := by
    have at_l := label l hl
    cases l with
    | s2 | s3 | a1 => exact at_l
    | a2 | a3 | a4 | a5 | a6 | a7 | a8 => exact at_l.1
    | _ => simp [autoLabel] at hd
  probe l hl hp := by
    have at_l := label l hl
    cases l with
    | a2 =>
      obtain ⟨-, e, he⟩ := at_l
      exact ⟨e, he, nofun⟩
    | a3 | a4 | a5 | a6 | a7 | a8 =>
      obtain ⟨-, e, he, ht⟩ := at_l
      exact ⟨e, he, fun _ => ht⟩
    | _ => simp [probeProgrammed] at hp
  popping hp := by
    rcases popPartWay_iff.1 hp with h | h
    · exact label _ h
    · exact (label _ h).1
  copied h := (label _ h).2

variable {s : State}

/-! ### Positions and results of MAIN -/

theorem BlockInv.keptBy_setPos (h : BlockInv s) (p : MainPos) : BlockInv (setPos p s) := h.of_same rfl
theorem BlockInv.keptBy_returns (h : BlockInv s) (r : Result) : BlockInv (returns r s) := h.of_same rfl
theorem BlockInv.keptBy_calledBy (h : BlockInv s) (who : Caller) : BlockInv (calledBy who s) := h.of_same rfl
theorem BlockInv.keptBy_userSends (h : BlockInv s) (c : PortWord) : BlockInv (userSends c s) := h.of_same rfl
theorem BlockInv.keptBy_withLevel (h : BlockInv s) (l : Level) : BlockInv { s with level := l } := h.of_same rfl
theorem BlockInv.keptBy_withCalls (h : BlockInv s) (cs : List Call) : BlockInv { s with calls := cs } := h.of_same rfl
theorem BlockInv.keptBy_withSched (h : BlockInv s) (us : List Turn) : BlockInv { s with sched := us } := h.of_same rfl

/-- MAIN goes to a label at which what the label needs holds; leaving CFG_AUTO for another operation it is tuned. -/
theorem BlockInv.keptBy_goto (h : BlockInv s) {l : Label} (hl : AtLabel l s)
    (ht : autoLabel l = false → s.st.configured = true → tunedToStored s) : BlockInv (goto l s) where
  data := { h.data with }
  control := .of_atLabel h.control.ingest h.control.armed (fun hc hp => ht hp hc) fun l' hl' => by
    cases hl'
    cases l <;> exact hl

/-- MAIN's operation returns; that of CFG_AUTO leaves the block tuned to what it stored. -/
theorem BlockInv.keptBy_opReturn (h : BlockInv s) (ht : s.st.configured = true → tunedToStored s) :
    BlockInv (opReturn s) where
  data := { h.data with }
  control := .of_atLabel h.control.ingest h.control.armed (fun hc _ => ht hc) nofun

/-- Only Frames are emitted as frames (45 R187). -/
theorem BlockInv.keptBy_emit (h : BlockInv s) {e : Event} (he : ∀ f, e = .frame f → f.wf) : BlockInv (emit e s) where
  data := { h.data with
    events := fun f hf => by
      rw [emit_out, List.mem_append, List.mem_singleton] at hf
      exact hf.elim (h.data.events f) fun hf => he f hf.symm }
  control := { h.control with }

theorem BlockInv.keptBy_menu (h : BlockInv s) : BlockInv (menu s) := (h.keptBy_emit (by simp)).keptBy_setPos .m2

theorem BlockInv.keptBy_quitFails (h : BlockInv s) : BlockInv (quitFails s) :=
  (h.keptBy_emit (by simp)).keptBy_setPos .m2

theorem BlockInv.keptBy_returnStatus (h : BlockInv s) : BlockInv (returnStatus s) := h.keptBy_returns _

/-! ### The status record -/

/-- The stored filter and mask are 11-bit values (`INV_ST2`). -/
theorem truncId_le (v : U16) : (truncId v).toNat ≤ 0x7FF := by
  rw [truncId, BitVec.toNat_and]
  exact Nat.and_le_right

theorem BlockInv.keptBy_storeFilter (h : BlockInv s) (f m : U16) :
    BlockInv (storeFilter (truncId f) (truncId m) s) where
  data := { h.data with st2 := ⟨truncId_le f, truncId_le m⟩ }
  control := { h.control with }

/-- The failed configuration leaves no bitrate; no START is under way and the interrupt is disabled. -/
theorem BlockInv.keptBy_unconfigure (h : BlockInv s) (hx : s.per.rxie = false)
    (ho : ∀ l, s.main.op = some l → l ≠ .t2 ∧ l ≠ .t3 ∧ l ≠ .t4) : BlockInv (unconfigure s) where
  data := { h.data with st1 := fun _ => rfl }
  control := { h.control with
    armed := fun hr => absurd (hx.symm.trans hr) nofun
    starting := ⟨by
        rintro (h2 | h3 | h4)
        · exact absurd rfl (ho _ h2).1
        · exact absurd rfl (ho _ h3).2.1
        · exact absurd rfl (ho _ h4).2.2,
      h.control.starting.2⟩
    timing := nofun }

/-- CFG_AUTO stores the bitrate it has found; `INV_CFG` speaks again at its return (log 26). -/
theorem BlockInv.keptBy_configure (h : BlockInv s) (b : U32) (hp : probing s = true) : BlockInv (configure b s) where
  data := { h.data with st1 := nofun }
  control := { h.control with
    armed := fun hr => ⟨(h.control.armed hr).1, rfl⟩
    starting := ⟨fun _ => rfl, h.control.starting.2⟩
    timing := fun _ hn => absurd (hp.symm.trans hn) nofun }

/-- CFG_MANUAL programs an entry of TABLE and stores its bitrate (41 R110). -/
theorem BlockInv.keptBy_tune (h : BlockInv s) {e : BitTimingEntry} (he : e ∈ s.cfg.table) (ho : s.main.op = none) :
    BlockInv (configure e.bitrate (perSetTiming e s)) where
  data := { h.data with st1 := nofun }
  control := .of_atLabel h.control.ingest (fun hr => ⟨(h.control.armed hr).1, rfl⟩)
    (fun _ _ => ⟨e, he, rfl, rfl, rfl, rfl⟩) fun l hl => by
    cases ho.symm.trans hl

/-! ### The peripheral port (10 R41) -/

theorem BlockInv.keptBy_perSetFilter (h : BlockInv s) {f m : U16} (hf : f.toNat ≤ 0x7FF ∧ m.toNat ≤ 0x7FF) :
    BlockInv (perSetFilter f m s) where
  data := { h.data with filter := hf }
  control := { h.control with }

theorem BlockInv.keptBy_perStart (h : BlockInv s) : BlockInv (perStart s) where
  data := { h.data with }
  control := { h.control with
    armed := fun hr => ⟨rfl, (h.control.armed hr).2⟩
    starting := ⟨h.control.starting.1, fun _ => rfl, h.control.starting.2.2⟩ }

/-- The entry a probe is about to program. -/
theorem BlockInv.keptBy_perSetTiming (h : BlockInv s) (e : BitTimingEntry) (ho : s.main.op = some .a2) :
    BlockInv (perSetTiming e s) where
  data := { h.data with }
  control := .of_atLabel h.control.ingest h.control.armed (fun _ hp => by simp [probing, ho, autoLabel] at hp)
    fun l hl => by
      cases ho.symm.trans hl
      exact h.control.atLabel ho

theorem BlockInv.keptBy_perIrqEnable (h : BlockInv s) (ho : s.main.op = some .t4) : BlockInv (perIrqEnable s) where
  data := { h.data with }
  control := .of_atLabel h.control.ingest (fun _ => (h.control.atLabel ho).symm) h.control.timing fun l hl => by
    cases ho.symm.trans hl
    exact h.control.atLabel ho

theorem BlockInv.keptBy_perIrqDisable (h : BlockInv s) (ho : s.main.op = some .s1) : BlockInv (perIrqDisable s) where
  data := { h.data with }
  control := .of_atLabel h.control.ingest nofun h.control.timing fun l hl => by
    cases ho.symm.trans hl
    trivial

/-- The peripheral is stopped with the interrupt disabled, no START under way and no invocation in progress. -/
theorem BlockInv.keptBy_perStop (h : BlockInv s) (hx : s.per.rxie = false) (ho : s.main.op ≠ some .t4)
    (ha : s.ing.active = false) : BlockInv (perStop s) where
  data := { h.data with
    queue := by
      rw [perStop_per]
      split
      · exact ⟨Nat.zero_le _, nofun⟩
      · exact h.data.queue }
  control := { h.control with
    ingest := fun hr => absurd (ha.symm.trans hr) nofun
    armed := fun hr => absurd (hx.symm.trans hr) nofun
    starting := ⟨h.control.starting.1, fun h4 => absurd h4 ho, h.control.starting.2.2⟩ }

/-! ### The locals of MAIN -/

theorem BlockInv.keptBy_setIdx (h : BlockInv s) (i : Nat) (ho : s.main.op = some .a1) : BlockInv (setIdx i s) where
  data := { h.data with }
  control := .of_atLabel h.control.ingest h.control.armed h.control.timing fun l hl => by
    cases ho.symm.trans hl
    exact h.control.atLabel ho

/-- MAIN's own copy of the frame at the tail (45 R186). -/
theorem BlockInv.keptBy_copies (h : BlockInv s) {f : Frame} (hf : f.wf) (ho : s.main.op = some .d6) :
    BlockInv { s with main := { s.main with fwF := f } } where
  data := { h.data with locals := ⟨h.data.locals.1, hf⟩ }
  control := .of_atLabel h.control.ingest h.control.armed h.control.timing fun l hl => by
    cases ho.symm.trans hl
    exact h.control.atLabel ho

theorem BlockInv.keptBy_takeIndices (h : BlockInv s) (ho : s.main.op = some .d5) : BlockInv (takeIndices s) where
  data := { h.data with }
  control := .of_atLabel h.control.ingest h.control.armed h.control.timing fun l hl => by
    cases ho.symm.trans hl
    trivial

/-! ### The ring (43 R159) -/

theorem occupancy_pos (h : DataInv s) (hne : s.rb.head ≠ s.rb.tail) : 0 < occupancy s := by
  have ho := occupancy_eq h.indices.1 h.indices.2
  have := h.indices.2
  split at ho <;> omega

/-- The tail slot of a ring that is not empty has been written. -/
theorem read_tail (h : DataInv s) (hne : s.rb.head ≠ s.rb.tail) : (s.rb.slots.read s.rb.tail).isSome = true := by
  have hr := h.held 0 (occupancy_pos h hne)
  rwa [Nat.add_zero, reduceIndex_eq_mod, Nat.mod_eq_of_lt h.indices.2] at hr

/-- A push writes outside the held range and then extends it by the slot written. -/
theorem DataInv.keptBy_pushed (h : DataInv s) {f : Frame} (hf : f.wf) (hfull : ringFull s = false) :
    DataInv (pushed f s) :=
  { h with
    indices := ⟨nextHead_lt s, h.indices.2⟩
    slots := Memory.wf_write h.slots h.indices.1
    frames := fun i g hg => by
      change (s.rb.slots.write s.rb.head f).read i = some g at hg
      by_cases hi : i = s.rb.head
      · rw [hi, Memory.read_write_same] at hg
        cases hg
        exact hf
      · rw [Memory.read_write_other _ _ hi] at hg
        exact h.frames i g hg
    held := fun j hj => by
      change ((s.rb.slots.write s.rb.head f).read (reduceIndex s.cfg (s.rb.tail + j))).isSome = true
      obtain ⟨hj, hne⟩ | ⟨-, heq⟩ := held_slot_push (t := pushed f s) h.indices.1 h.indices.2 hfull rfl rfl rfl hj
      · rw [Memory.read_write_other _ _ hne]
        exact h.held j hj
      · rw [heq, Memory.read_write_same]
        rfl }

/-- A push leaves the slot a pop is reading alone: it is held, so it is not the head slot. -/
theorem BlockInv.keptBy_pushed (h : BlockInv s) {f : Frame} (hf : f.wf) (hfull : ringFull s = false) :
    BlockInv (pushed f s) where
  data := h.data.keptBy_pushed hf hfull
  control := { h.control with
    popping := fun hp => ⟨(h.control.popping hp).1, fun heq => by simp [(ringFull_iff s).2 heq] at hfull⟩
    copied := fun ho => by
      change (s.rb.slots.write s.rb.head f).read s.rb.tail = _
      rw [Memory.read_write_other _ _ (h.control.atLabel ho).1.2.symm]
      exact h.control.copied ho }

/-- A pop releases the tail slot; the slots behind it stay held. -/
theorem BlockInv.keptBy_releases (h : BlockInv s) (hne : s.rb.head ≠ s.rb.tail) (hp : popPartWay s = false) :
    BlockInv (setTail (reduceIndex s.cfg (s.rb.tail + 1)) s) where
  data := { h.data with
    indices := ⟨h.data.indices.1, reduceIndex_lt _ _⟩
    held := fun j hj => by
      have ho := occupancy_pop (t := setTail (reduceIndex s.cfg (s.rb.tail + 1)) s) h.data.indices.1 h.data.indices.2
        hne rfl rfl rfl
      have hslot :
          reduceIndex s.cfg (reduceIndex s.cfg (s.rb.tail + 1) + j) = reduceIndex s.cfg (s.rb.tail + (j + 1)) := by
        simp only [reduceIndex_eq_mod, Nat.mod_add_mod]
        congr 1
        omega
      change (s.rb.slots.read (reduceIndex s.cfg (reduceIndex s.cfg (s.rb.tail + 1) + j))).isSome = true
      rw [hslot]
      exact h.data.held _ (by omega) }
  control := { h.control with
    popping := fun hr => absurd (hp.symm.trans hr) nofun
    copied := fun ho => absurd (hp.symm.trans (popPartWay_iff.2 (.inr ho))) nofun }

theorem BlockInv.keptBy_ringReset (h : BlockInv s) (hp : popPartWay s = false) : BlockInv (ringReset s) where
  data := { h.data with
    indices := ⟨Params.n_pos _, Params.n_pos _⟩
    held := fun j hj => by simp [occupancy] at hj }
  control := { h.control with
    popping := fun hr => absurd (hp.symm.trans hr) nofun
    copied := fun ho => absurd (hp.symm.trans (popPartWay_iff.2 (.inr ho))) nofun }

/-! ### The Ingest Path and the environment -/

theorem BlockInv.keptBy_enterIngest (h : BlockInv s) : BlockInv (enterIngest s) where
  data := { h.data with }
  control := { h.control with ingest := fun _ => nofun }

theorem BlockInv.keptBy_leaveIngest (h : BlockInv s) : BlockInv (leaveIngest s) where
  data := { h.data with }
  control := { h.control with ingest := fun _ => nofun }

/-- The Ingest Path goes to i4 on a frame to take, below the bound (44 R169). -/
theorem BlockInv.keptBy_setIngPos (h : BlockInv s) {p : IngPos}
    (hp : p = .i4 → s.ing.n < s.cfg.drainBound ∧ s.per.rxq ≠ []) : BlockInv (setIngPos p s) where
  data := { h.data with }
  control := { h.control with ingest := fun _ hi => hp hi }

theorem BlockInv.keptBy_countsFromZero (h : BlockInv s) :
    BlockInv (setIngPos .i3 { s with ing := { s.ing with n := 0 } }) where
  data := { h.data with }
  control := { h.control with ingest := fun _ => nofun }

/-- The oldest frame of the hardware queue is taken (10 R41). -/
theorem BlockInv.keptBy_takesFrame (h : BlockInv s) {f : Frame} {q : List Frame} (hq : s.per.rxq = f :: q) (n : Nat) :
    BlockInv (setIngPos .i5 { s with per := { s.per with rxq := q }, ing := { s.ing with f := f, n := n } }) := by
  obtain ⟨hlen, hwf⟩ := h.data.queue
  rw [hq, List.length_cons] at hlen
  rw [hq, List.forall_mem_cons] at hwf
  exact ⟨{ h.data with queue := ⟨Nat.le_of_succ_le hlen, hwf.2⟩, locals := ⟨hwf.1, h.data.locals.2⟩ },
    { h.control with ingest := fun _ => nofun }⟩

/-- A frame that finds room waits in the hardware queue, within its bound (44 R167). -/
theorem BlockInv.keptBy_arrives (h : BlockInv s) {f : Frame} (hf : f.wf) : BlockInv (busArrives f s) := by
  obtain hs | ⟨-, hroom, hs⟩ | ⟨-, -, hs⟩ := busArrives_cases f s <;> rw [hs]
  · exact h
  · refine ⟨{ h.data with queue := ⟨?_, ?_⟩ },
      { h.control with ingest := fun ha hp => ⟨(h.control.ingest ha hp).1, ?_⟩ }⟩
    · simpa using hroom
    · exact List.forall_mem_append.2 ⟨h.data.queue.2, List.forall_mem_singleton.2 hf⟩
    · exact List.append_ne_nil_of_right_ne_nil _ (List.cons_ne_nil _ _)
  · exact h.of_same rfl

end Sys2Proof.Machine
end

section
/-! Every step keeps `BlockInv`, and stops with a fault only where a turn it took is not legal. -/

namespace Sys2Proof.Machine

/-- The answer of a step that took turns among `us`: it keeps `BlockInv`, or it is a fault an illegal turn among them
explains, or a refusal. -/
def Sound (us : List Turn) (r : Res) : Prop :=
  match r with
  | .next t => BlockInv t
  | .fault _ => ∃ u ∈ us, ¬turnOk u
  | .refused _ => True

theorem Sound.mono {us vs : List Turn} {r : Res} (h : Sound us r) (hs : us ⊆ vs) : Sound vs r := by
  cases r with
  | next t => exact h
  | fault e =>
    obtain ⟨u, hu, hn⟩ := h
    exact ⟨u, hs hu, hn⟩
  | refused e => trivial

theorem Sound.bind {us : List Turn} {r : Res} {k : State → Res} (h : Sound us r)
    (hk : ∀ t, BlockInv t → Sound us (k t)) : Sound us (andThen r k) := by
  cases r with
  | next t => exact hk t h
  | fault e => exact h
  | refused e => trivial

variable {s : State}

/-! ### MAIN's labelled steps -/

/-- Outside CFG_AUTO the block is tuned to what it has stored (`INV_CFG`; log 26). -/
theorem BlockInv.tuned (h : BlockInv s) {l : Label} (ho : s.main.op = some l) (hl : autoLabel l = false) :
    s.st.configured = true → tunedToStored s :=
  fun hc => h.control.timing hc (by simp [probing, ho, hl])

theorem BlockInv.disarmed (h : BlockInv s) (hr : s.per.running = false) : s.per.rxie = false :=
  Bool.eq_false_iff.2 fun hx => absurd (hr.symm.trans (h.control.armed hx).1) nofun

/-- A slot cannot stop the read of the tail of a ring that is not empty. -/
theorem DataInv.tail_readable (h : DataInv s) (hne : s.rb.head ≠ s.rb.tail) :
    ¬(s.cfg.n ≤ s.rb.tail ∨ s.rb.slots.read s.rb.tail = none) := by
  rintro (hn | hn)
  · exact absurd h.indices.2 (Nat.not_lt.2 hn)
  · simpa [hn] using read_tail h hne

/-- Where MAIN takes a labelled step, no invocation is in progress. -/
theorem LabelRes.sound {l : Label} {r : Res} (h : BlockInv s) (ha : s.ing.active = false) (ho : s.main.op = some l)
    (hr : LabelRes s l r) : Sound [] r := by
  have at_l := h.control.atLabel ho
  have reported (w : Loss) {l' : Label} (hl : AtLabel l' s) (hd : autoLabel l = false) :
      BlockInv (goto l' (emit (.diag w) s)) :=
    (h.keptBy_emit (by simp)).keptBy_goto (by cases l' <;> exact hl) fun _ => h.tuned ho hd
  cases hr with
  | t1_running | a0_running => trivial
  | t1_configured hr hc => exact h.keptBy_goto hc fun _ => h.tuned ho rfl
  | t1_failsQuit => exact ((h.keptBy_returns (.bool false)).keptBy_opReturn (h.tuned ho rfl)).keptBy_quitFails
  | t1_fails => exact (h.keptBy_returns _).keptBy_opReturn (h.tuned ho rfl)
  | t2 => exact (h.keptBy_perSetFilter h.data.st2).keptBy_goto at_l fun _ => h.tuned ho rfl
  | t3 => exact h.keptBy_perStart.keptBy_goto ⟨at_l, rfl⟩ fun _ => h.tuned ho rfl
  | t4_quit => exact ((h.keptBy_perIrqEnable ho).keptBy_returns _).keptBy_goto rfl fun _ => h.tuned ho rfl
  | t4_returns => exact ((h.keptBy_perIrqEnable ho).keptBy_returns _).keptBy_opReturn (h.tuned ho rfl)
  | q1 => exact (h.keptBy_opReturn (h.tuned ho rfl)).of_same rfl
  | s1 => exact (h.keptBy_perIrqDisable ho).keptBy_goto rfl fun _ => h.tuned ho rfl
  | s2 => exact (h.keptBy_perStop at_l (by simp [ho]) ha).keptBy_goto at_l fun _ => h.tuned ho rfl
  | s3 => exact (h.keptBy_ringReset (by simp [popPartWay, ho])).keptBy_opReturn (h.tuned ho rfl)
  | a0 hr => exact (h.keptBy_goto (l := .a1) (h.disarmed hr) nofun).keptBy_setIdx 0 rfl
  | a1_exhausted =>
    exact (h.keptBy_unconfigure at_l (by simp [ho])).keptBy_returnStatus.keptBy_opReturn nofun
  | a1_probes hi => exact h.keptBy_goto ⟨at_l, _, List.getElem?_eq_getElem hi⟩ nofun
  | a2 e he => exact (h.keptBy_perSetTiming e ho).keptBy_goto ⟨at_l.1, e, he, rfl, rfl, rfl⟩ nofun
  | a2_outside hn =>
    obtain ⟨-, e, he⟩ := at_l
    exact absurd (hn.symm.trans he) nofun
  | a8_outside hn =>
    obtain ⟨-, e, he, -⟩ := at_l
    exact absurd (hn.symm.trans he) nofun
  | a3 => exact (h.keptBy_perSetFilter (by decide)).keptBy_goto at_l nofun
  | a4 => exact h.keptBy_perStart.keptBy_goto at_l nofun
  | a5 => exact h.keptBy_goto at_l nofun
  | a6 => exact (h.keptBy_goto (l := .a7) at_l nofun).of_same rfl
  | a7 => exact (h.keptBy_perStop at_l.1 (by simp [ho]) ha).keptBy_goto at_l nofun
  | a8_found e he =>
    obtain ⟨-, e', he', ht⟩ := at_l
    obtain rfl := Option.some.inj (he.symm.trans he')
    exact (h.keptBy_configure _ (by simp [probing, ho, autoLabel])).keptBy_returnStatus.keptBy_opReturn
      fun _ => ⟨e, List.mem_of_getElem? he, rfl, ht⟩
  | a8_silent => exact (h.keptBy_goto (l := .a1) at_l.1 nofun).keptBy_setIdx _ rfl
  | d1 => exact (h.keptBy_goto (l := .d2) trivial fun _ => h.tuned ho rfl).of_same rfl
  | d2_reports => exact (reported .hwLoss (l' := .d3) trivial rfl).of_same rfl
  | d3 => exact (h.keptBy_goto (l := .d4) trivial fun _ => h.tuned ho rfl).of_same rfl
  | d4_reports => exact (reported .swLoss (l' := .d5) trivial rfl).of_same rfl
  | d2 | d4 => exact h.keptBy_goto trivial fun _ => h.tuned ho rfl
  | d5_empty => exact (h.keptBy_takeIndices ho).keptBy_opReturn (h.tuned ho rfl)
  | d5_holds hne => exact (h.keptBy_takeIndices ho).keptBy_goto ⟨rfl, hne⟩ fun _ => h.tuned ho rfl
  | d6 f hf =>
    exact (h.keptBy_copies (h.data.frames _ f hf) ho).keptBy_goto ⟨at_l, at_l.1 ▸ hf⟩ fun _ => h.tuned ho rfl
  | d6_unread e hn => exact absurd (at_l.1 ▸ hn) (h.data.tail_readable at_l.2)
  | d7 =>
    obtain ⟨⟨ht, hne⟩, -⟩ := at_l
    rw [ht]
    exact (h.keptBy_goto (l := .d8) trivial fun _ => h.tuned ho rfl).keptBy_releases hne rfl
  | d8 =>
    refine (h.keptBy_emit ?_).keptBy_goto trivial fun _ => h.tuned ho rfl
    rintro f ⟨⟩
    exact h.data.locals.2

theorem labelStep_sound {l : Label} (h : BlockInv s) (ha : s.ing.active = false) (ho : s.main.op = some l) :
    Sound [] (labelStep l s) :=
  (labelStep_res l s).sound h ha ho

theorem opStep_sound (h : BlockInv s) (ha : s.ing.active = false) : Sound [] (opStep s) := by
  unfold opStep
  split
  next l ho => exact labelStep_sound h ha ho
  next => exact h

/-! ### The Ingest Path, and the turns of the other agents -/

theorem IsrRes.sound {r : Res} (h : BlockInv s) (ha : s.ing.active = true) (hr : IsrRes s r) : Sound [] r := by
  cases hr with
  | i0 => exact h.keptBy_enterIngest
  | i1_lost => exact (h.keptBy_setIngPos (p := .i2) nofun).of_same rfl
  | i1 | i3_done => exact h.keptBy_setIngPos nofun
  | i2 => exact h.keptBy_countsFromZero
  | i3_more _ hn hq => exact h.keptBy_setIngPos fun _ => ⟨hn, hq⟩
  | i4 f q _ hq => exact h.keptBy_takesFrame hq _
  | i4_empty hp hq => exact absurd hq (h.control.ingest ha hp).2
  | i5_full => exact (h.keptBy_setIngPos (p := .i3) nofun).of_same rfl
  | i5_stores _ hf => exact ((h.keptBy_pushed h.data.locals.1 hf).keptBy_setIngPos (p := .i3) nofun).of_same rfl
  | i5_outside _ hn => exact absurd h.data.indices.1 (Nat.not_lt.2 hn)
  | i6 => exact h.keptBy_leaveIngest

theorem isrStep_sound (h : BlockInv s) (ha : s.ing.active = true) : Sound [] (isrStep s) :=
  (isrStep_res s).sound h ha

theorem envTurn_sound (h : BlockInv s) (u : Turn) : Sound [u] (envTurn u s) := by
  cases u with
  | cpu | op => exact h
  | irq =>
    simp only [envTurn]
    split
    · exact h.keptBy_enterIngest
    · exact h
  | bus f =>
    simp only [envTurn]
    split
    next hf => exact h.keptBy_arrives hf
    next hf => exact ⟨.bus f, List.mem_singleton_self _, hf⟩
  | ext => exact h.of_same rfl
  | user c => exact h.keptBy_userSends c

theorem cpuStep_sound (h : BlockInv s) : Sound [] (cpuStep s) := by
  unfold cpuStep
  split
  next ha => exact isrStep_sound h ha
  next ha => exact opStep_sound h (Bool.not_eq_true _ ▸ ha)

theorem turnInside_sound (h : BlockInv s) (u : Turn) : Sound [u] (turnInside u s) := by
  cases u with
  | cpu => exact (cpuStep_sound h).mono (List.nil_subset _)
  | irq | bus | ext | user | op => exact envTurn_sound h _

/-- An operation's run through the listed turns. -/
theorem carryOn_sound (busy : State → Bool) (us : List Turn) (h : BlockInv s) : Sound us (carryOn busy us s) := by
  induction us generalizing s with
  | nil => exact h
  | cons u r ih =>
    unfold carryOn
    split
    · have first := (turnInside_sound (h.keptBy_withSched r) u).mono (vs := u :: r) (by simp)
      exact first.bind fun t ht => (ih ht).mono (List.subset_cons_self u r)
    · exact h

/-! ### Calls, the loop and issued operations -/

theorem findEntry_mem {table : List BitTimingEntry} {b : U32} {e : BitTimingEntry} (h : findEntry table b = some e) :
    e ∈ table :=
  List.mem_of_find?_eq_some h

/-- An operation begins where MAIN was free: nothing is required at its first label. -/
theorem BlockInv.keptBy_begin (h : BlockInv s) (ho : s.main.op = none) (who : Caller) {c : Call} {l : Label}
    (hl : c.firstLabel = some l) : BlockInv (goto l (calledBy who s)) := by
  have ready : AtLabel l (calledBy who s) := by cases c <;> cases hl <;> trivial
  exact (h.keptBy_calledBy who).keptBy_goto ready fun _ hc => h.control.timing hc (by simp [probing, ho])

/-- A call is made where MAIN is free. -/
theorem CallRes.sound {who : Caller} {c : Call} {r : Res} (h : BlockInv s) (ho : s.main.op = none)
    (ha : s.ing.active = false) (hr : CallRes who s c r) : Sound [] r := by
  have noPop : popPartWay s = false := by simp [popPartWay, ho]
  cases hr with
  | running => trivial
  | found b e _ he => exact (h.keptBy_tune (findEntry_mem he) ho).keptBy_returnStatus
  | missing b hr => exact (h.keptBy_unconfigure (h.disarmed hr) (by simp [ho])).keptBy_returnStatus
  | stores f m => exact (h.keptBy_storeFilter f m).keptBy_returnStatus
  | prints => exact (h.keptBy_emit (by simp)).keptBy_returnStatus
  | answers => exact h.keptBy_returnStatus
  | begins _ l hl _ hr => exact hr.sound (h.keptBy_begin ho who hl) ha rfl
  | popsNone => exact h.keptBy_returns _
  | pops f hne => exact (h.keptBy_releases hne noPop).keptBy_returns _
  | popStops _ hne hs => exact absurd hs (h.data.tail_readable hne)
  | resets => exact h.keptBy_ringReset noPop

theorem callStep_sound (h : BlockInv s) (ho : s.main.op = none) (ha : s.ing.active = false) (who : Caller) (c : Call) :
    Sound [] (callStep who c s) :=
  (callStep_res who c s).sound h ho ha

/-- QUIT begins as START does. -/
theorem beginQuit_sound (h : BlockInv s) (ho : s.main.op = none) (ha : s.ing.active = false) : Sound [] (beginQuit s) :=
  labelStep_sound (h.keptBy_begin (c := .start) ho .quit rfl) ha rfl

theorem BlockInv.keptBy_advance (h : BlockInv s) : BlockInv (advance s) := by
  obtain ⟨p, hp⟩ := advance_eq s
  exact hp ▸ h.keptBy_setPos p

theorem LoopRes.sound {r : Res} (h : BlockInv s) (ho : s.main.op = none) (ha : s.ing.active = false)
    (hr : LoopRes s r) : Sound [] r := by
  cases hr with
  | configuring | capturing => exact h.keptBy_setPos _
  | blocks => exact h
  | reads => exact h.of_same rfl
  | menu => exact (h.keptBy_withLevel .dlg).keptBy_menu
  | calls c lvl _ _ hr =>
    rw [← hr]
    exact (callStep_sound (h.keptBy_withLevel lvl) ho ha .loop c).bind fun t ht => ht.keptBy_advance
  | quits _ _ _ hr => exact hr ▸ beginQuit_sound (h.keptBy_withLevel .dlg) ho ha

theorem goOn_sound (h : BlockInv s) (ha : s.ing.active = false) : Sound [] (goOn s) := by
  refine (opStep_sound h ha).bind fun t ht => ?_
  dsimp only [Sound]
  split
  · exact ht.keptBy_advance
  · exact ht

theorem mainStep_sound (h : BlockInv s) (ha : s.ing.active = false) : Sound [] (mainStep s) := by
  unfold mainStep
  split
  · exact goOn_sound h ha
  next ho =>
    have free : s.main.op = none := by simpa using ho
    split
    next c q _ => exact callStep_sound (h.keptBy_withCalls q) free ha .direct c
    next => exact (loopStep_res s).sound h free ha

/-! ### Issued operations and the step -/

/-- A call, or QUIT, and its run through the listed turns, which it leaves listed until it takes them. -/
theorem Sound.runs {us : List Turn} {r : Res} (h : Sound [] r) (hs : ∀ t, r = .next t → t.sched = us) :
    Sound us (andThen r mainGoesOn) := by
  cases r with
  | next t => exact hs t rfl ▸ carryOn_sound opInProgress t.sched h
  | fault e => exact h.mono (List.nil_subset _)
  | refused e => trivial

theorem PushRes.sound {f : Frame} {r : Res} (h : BlockInv s) (hf : f.wf) (hr : PushRes f s r) : Sound [] r := by
  cases hr with
  | full => exact h.of_same rfl
  | stores hfull => exact h.keptBy_pushed hf hfull
  | outside hn => exact absurd h.data.indices.1 (Nat.not_lt.2 hn)

theorem ExecRes.sound {i : Instr} {r : Res} (h : BlockInv s) (hi : i.wf) (hr : ExecRes s i r) : Sound s.sched r := by
  cases hr with
  | sends _ c => exact h.keptBy_userSends c
  | queues c => exact h.keptBy_withCalls _
  | menu => exact h.keptBy_menu
  | calls c hb _ hr =>
    obtain ⟨ho, ha, -⟩ := mainBusy_eq_false.1 hb
    exact hr ▸ (callStep_sound h ho ha _ c).runs fun t ht => (callStep_next ht).sched
  | quits _ hb _ hr =>
    obtain ⟨ho, ha, -⟩ := mainBusy_eq_false.1 hb
    exact hr ▸ (beginQuit_sound h ho ha).runs fun t ht => (beginQuit_next ht).sched
  | requests => exact h.of_same rfl
  | ingests _ _ hr => exact hr ▸ carryOn_sound ingestInProgress s.sched h.keptBy_enterIngest
  | pushes f _ hr =>
    exact hr ▸ (((ringPush_res f s).sound h hi).mono (List.nil_subset _)).bind fun t ht => ht.keptBy_returns _
  | arrives f => exact h.keptBy_arrives hi
  | refuses => trivial

theorem exec_sound {c : PortWord} {i : Instr} (h : BlockInv s) (hd : decode c = .ok i) : Sound s.sched (exec i s) :=
  (exec_res i s).sound h (decode_wf hd)

/-- A word read by the dialog. -/
theorem dialogCommand_sound (h : BlockInv s) (c : PortWord) : Sound s.sched (dialogCommand c s) := by
  have read : BlockInv (readCommand c { s with level := .dlg }) := h.of_same rfl
  cases hd : decode c with
  | error e => exact dialogCommand_error hd s ▸ read.keptBy_menu
  | ok i =>
    rw [dialogCommand_ok hd]
    refine Sound.bind (exec_sound read hd) fun t ht => ?_
    rw [dialogResumes_eq]
    exact ht.of_same rfl

theorem issue_sound (h : BlockInv s) (lvl : Level) (c : PortWord) : Sound (.op lvl c :: s.sched) (issue lvl c s) := by
  unfold issue
  split
  · split
    · exact (dialogCommand_sound h c).mono (List.subset_cons_self ..)
    · exact h.keptBy_userSends c
  next hl =>
    cases hd : decode c with
    | ok i => exact (exec_sound (h.keptBy_withLevel lvl) hd).mono (List.subset_cons_self ..)
    | error e => exact ⟨.op lvl c, List.mem_cons_self .., by simp [turnOk, hl, hd]⟩

theorem takeTurn_sound (h : BlockInv s) (u : Turn) : Sound (u :: s.sched) (takeTurn u s) := by
  cases u with
  | cpu =>
    have cpu : Sound [] (takeTurn .cpu s) := by
      simp only [takeTurn]
      split
      next ha => exact isrStep_sound h ha
      next ha => exact mainStep_sound h (Bool.not_eq_true _ ▸ ha)
    exact cpu.mono (List.nil_subset _)
  | op lvl c => exact issue_sound h lvl c
  | irq => exact (envTurn_sound h .irq).mono (by simp)
  | bus f => exact (envTurn_sound h (.bus f)).mono (by simp)
  | ext => exact (envTurn_sound h .ext).mono (by simp)
  | user c => exact (envTurn_sound h (.user c)).mono (by simp)

/-- Settles O16: the turn is taken from the list or is a free value, and every turn keeps the invariant. -/
theorem everyStepKeepsInv : Obligations.EveryStepKeepsInv := by
  intro s t h hs
  have taken : BlockInv (nextTurn s).2 := by
    unfold nextTurn
    split <;> exact h.of_same rfl
  have sound := takeTurn_sound taken (nextTurn s).1
  rwa [show takeTurn _ _ = .next t from hs] at sound

/-- Settles O17: a fault would be explained by a turn that is not legal. -/
theorem legalTurnsNeverFault : Obligations.LegalTurnsNeverFault := by
  intro s u r e h hs legal hf
  have sound := takeTurn_sound (h.keptBy_withSched r) u
  rw [← step_listed hs, hf] at sound
  obtain ⟨v, hv, illegal⟩ := sound
  exact illegal (legal v (hs ▸ hv))

end Sys2Proof.Machine
end

section
/-! Who writes the mode, the overflow flags, the interrupt enable and the stored filter; the state at power-on; the
numbered registers (10_state.md). -/

namespace Sys2Proof.Machine

section
variable {s t : State} {u : Turn}

/-! ### MAIN's step -/

theorem MainMoves.mode (h : MainMoves s t) :
    t.mode = s.mode ∨ (s.main.op = some .q1 ∧ t.mode = .capturing ∧ t.per = s.per ∧ t.st = s.st) := by
  cases h with
  | inside l v p ho h ht =>
    subst ht
    obtain h | ⟨rfl, rfl⟩ := h.mode
    · exact .inl h
    · exact .inr ⟨ho, rfl, rfl, rfl⟩
  | waited _ _ _ _ h => exact .inl h.mode
  | calls _ _ _ _ _ _ _ h ht => exact .inl (ht ▸ h.mode)
  | quits _ h => exact .inl (h.mode.resolve_right (by simp))
  | moves _ _ _ _ _ ht => exact .inl (ht ▸ rfl)

theorem MainMoves.ovf (h : MainMoves s t) :
    t.ovf = s.ovf ∨
      (s.main.op = some .d2 ∧ t.ovf = { s.ovf with hardwareLoss := false } ∧ t.out = s.out ++ [.diag .hwLoss]) ∨
      (s.main.op = some .d4 ∧ t.ovf = { s.ovf with softwareLoss := false } ∧ t.out = s.out ++ [.diag .swLoss]) := by
  cases h with
  | inside l v p ho h ht =>
    subst ht
    obtain same | ⟨rfl, clears⟩ | ⟨rfl, clears⟩ := h.ovf
    · exact .inl same
    · exact .inr (.inl ⟨ho, clears⟩)
    · exact .inr (.inr ⟨ho, clears⟩)
  | waited _ _ _ _ h => exact .inl h.ovf
  | calls _ _ _ _ _ _ _ h ht => exact .inl (ht ▸ h.ovf)
  | quits _ h => exact .inl (h.ovf.resolve_right (by simp))
  | moves _ _ _ _ _ ht => exact .inl (ht ▸ rfl)

theorem MainMoves.rxie (h : MainMoves s t) :
    t.per.rxie = s.per.rxie ∨ (s.main.op = some .t4 ∧ t.per.rxie = true) ∨
      (t.per.rxie = false ∧ (s.main.op = some .s1 ∨ (s.main.op = none ∧ t.main.op = some .s2 ∧
        ((s.calls = [] ∧ s.main.pos = .m1) ∨ ∃ q, s.calls = .stop :: q)))) := by
  cases h with
  | inside l v p ho h ht =>
    subst ht
    obtain h | ⟨rfl, hx⟩ | ⟨rfl, hx, -⟩ := h.rxie
    · exact .inl h
    · exact .inr (.inl ⟨ho, hx⟩)
    · exact .inr (.inr ⟨hx, .inl ho⟩)
  | waited c q ho hc h =>
    obtain h | ⟨rfl, hx, hs⟩ := h.rxie
    · exact .inl h
    · exact .inr (.inr ⟨hx, .inr ⟨ho, hs, .inr ⟨q, hc⟩⟩⟩)
  | calls c _ v p ho hc hl h ht =>
    subst ht
    obtain h | ⟨rfl, hx, hs⟩ := h.rxie
    · exact .inl h
    · cases hl with
      | m1 hp => exact .inr (.inr ⟨hx, .inr ⟨ho, hs, .inl ⟨hc, hp⟩⟩⟩)
      | m3 _ _ _ hc => cases hc
  | quits _ h => exact .inl (h.rxie.resolve_right (by simp))
  | moves _ _ _ _ _ ht => exact .inl (ht ▸ rfl)

theorem MainMoves.filter (h : MainMoves s t) :
    storedFilter t = storedFilter s ∨ (s.main.op = none ∧
      ((s.calls = [] ∧ s.main.pos = .m3 ∧ ∃ f m, decode s.main.cmd = .ok (.setFm f m)) ∨
        ∃ f m q, s.calls = .setFm f m :: q)) := by
  cases h with
  | inside _ _ _ _ h ht => exact .inl (ht ▸ h.filter)
  | waited c q ho hc h =>
    obtain h | ⟨f, m, rfl⟩ := h.filter
    · exact .inl h
    · exact .inr ⟨ho, .inr ⟨f, m, q, hc⟩⟩
  | calls c _ v p ho hc hl h ht =>
    subst ht
    obtain h | ⟨f, m, rfl⟩ := h.filter
    · exact .inl h
    · cases hl with
      | m3 _ hp hd _ => exact .inr ⟨ho, .inl ⟨hc, hp, f, m, hd⟩⟩
  | quits _ h => exact .inl h.filter
  | moves _ _ _ _ _ ht => exact .inl (ht ▸ rfl)

/-! ### The overflow flags and the interrupt enable -/

/-- A turn without an issued word is a step of the Ingest Path, of MAIN or of another agent. -/
theorem TurnMoves.ovf (h : TurnMoves s t u) (hu : loopTurn u) :
    t.ovf = s.ovf ∨
      (u = .cpu ∧ s.ing.active = true ∧
        ((s.ing.pos = .i1 ∧ s.per.lost = true ∧ t.per.lost = false ∧ t.ovf = { s.ovf with hardwareLoss := true }) ∨
          (s.ing.pos = .i5 ∧ ringFull s = true ∧ t.rb = s.rb ∧ t.ovf = { s.ovf with softwareLoss := true }))) ∨
      (u = .cpu ∧ s.ing.active = false ∧
        ((s.main.op = some .d2 ∧ t.ovf = { s.ovf with hardwareLoss := false } ∧ t.out = s.out ++ [.diag .hwLoss]) ∨
          (s.main.op = some .d4 ∧ t.ovf = { s.ovf with softwareLoss := false } ∧ t.out = s.out ++ [.diag .swLoss]))) := by
  cases h with
  | ingest ha h => exact h.ovf.imp_right fun h => .inl ⟨rfl, ha, h⟩
  | main ha h => exact h.ovf.imp_right fun h => .inr ⟨rfl, ha, h⟩
  | env _ h =>
    obtain ⟨-, -, -, -, -, hovf⟩ := envTurn_keeps h
    exact .inl hovf
  | issued => exact hu.elim

/-- A flag has one value. -/
theorem absurd_flag {b c : Bool} {p : Prop} (h : b = c) (h' : b = !c) : p := by
  subst h
  cases b <;> cases h'

/-- Settles O21: the one turn of each kind that writes a flag. -/
theorem overflowFlagsHaveOneSetterAndOneClearer : Obligations.OverflowFlagsHaveOneSetterAndOneClearer := by
  intro s t u r hs hu h
  obtain hovf | ⟨rfl, ha, ⟨hp, hl, hl', hovf⟩ | ⟨hp, hf, hrb, hovf⟩⟩ |
      ⟨rfl, ha, ⟨ho, hovf, hout⟩ | ⟨ho, hovf, hout⟩⟩ := (step_moves hs h).ovf hu <;> rw [hovf]
  · exact ⟨absurd_flag, absurd_flag, absurd_flag, absurd_flag⟩
  · exact ⟨fun _ _ => ⟨rfl, ha, hp, hl, hl'⟩, absurd_flag, fun _ => nofun, absurd_flag⟩
  · exact ⟨absurd_flag, fun _ _ => ⟨rfl, ha, hp, hf, hrb⟩, absurd_flag, fun _ => nofun⟩
  · exact ⟨fun _ => nofun, absurd_flag, fun _ _ => ⟨rfl, ha, ho, hout⟩, absurd_flag⟩
  · exact ⟨absurd_flag, fun _ => nofun, absurd_flag, fun _ _ => ⟨rfl, ha, ho, hout⟩⟩

/-- Of the turns without an issued word only MAIN's step writes the interrupt enable. -/
theorem TurnMoves.rxie (h : TurnMoves s t u) (hu : loopTurn u) :
    t.per.rxie = s.per.rxie ∨ (u = .cpu ∧ s.ing.active = false ∧ MainMoves s t) := by
  cases h with
  | ingest _ h =>
    obtain ⟨-, -, -, hx, -⟩ := h.keeps
    exact .inl hx
  | env _ h =>
    obtain ⟨-, -, -, hx, -, -⟩ := envTurn_keeps h
    exact .inl hx
  | issued => exact hu.elim
  | main ha h => exact .inr ⟨rfl, ha, h⟩

/-- Settles O22: what MAIN's step does to the interrupt enable. -/
theorem interruptEnableHasOneSetterAndOneClearer : Obligations.InterruptEnableHasOneSetterAndOneClearer := by
  refine ⟨rfl, fun s t u r hs hu h => ?_⟩
  obtain hx | ⟨rfl, ha, h⟩ := (step_moves hs h).rxie hu
  · rw [hx]
    exact ⟨absurd_flag, absurd_flag⟩
  · obtain hx | ⟨ho, hx⟩ | ⟨hx, ho⟩ := h.rxie <;> rw [hx]
    · exact ⟨absurd_flag, absurd_flag⟩
    · exact ⟨fun _ _ => ⟨rfl, ha, ho⟩, fun _ => nofun⟩
    · exact ⟨fun _ => nofun, fun _ _ => ⟨rfl, ha, ho⟩⟩

/-! ### The stored filter and mask -/

theorem InsideMoves.filter (h : InsideMoves s t u) : storedFilter t = storedFilter s := by
  cases h with
  | ingest _ h =>
    obtain ⟨-, hst, -⟩ := h.keeps
    rw [storedFilter, hst, storedFilter]
  | label _ _ _ h => exact h.filter
  | idle ht => rw [ht]
  | env _ h =>
    obtain ⟨-, hst, -⟩ := envTurn_keeps h
    rw [storedFilter, hst, storedFilter]

theorem carryOn_filter {busy : State → Bool} {us : List Turn} (h : carryOn busy us s = .next t) :
    storedFilter t = storedFilter s := by
  obtain ⟨-, -, -, ht, -⟩ := carryOn_keeps (P := fun _ v => storedFilter v = storedFilter s)
    (fun u r v w _ _ hv hw => (turnInside_moves hw).filter.trans hv) us s t rfl h
  exact ht

theorem ExecRes.filter {i : Instr} (h : ExecRes s i (.next t)) :
    storedFilter t = storedFilter s ∨ ∃ f m, i = .setFm f m := by
  cases h with
  | sends | queues | menu | requests => exact .inl rfl
  | calls c _ _ h =>
    obtain ⟨v, hv, ht⟩ := andThen_eq_next.1 h
    obtain hf | ⟨f, m, rfl⟩ := (callStep_next hv).filter
    · exact .inl ((carryOn_filter ht).trans hf)
    · exact .inr ⟨f, m, rfl⟩
  | quits _ _ _ h =>
    obtain ⟨v, hv, ht⟩ := andThen_eq_next.1 h
    exact .inl ((carryOn_filter ht).trans (beginQuit_next hv).filter)
  | ingests _ _ h => exact .inl (carryOn_filter (s := enterIngest s) h)
  | pushes f _ h =>
    obtain ⟨v, hv, ht⟩ := andThen_eq_next.1 h
    cases ht
    cases hv ▸ ringPush_res f s <;> exact .inl rfl
  | arrives f =>
    obtain ⟨-, hst, -⟩ := busArrives_keeps f s
    exact .inl (by rw [storedFilter, hst, storedFilter])

/-- Settles O23: of MAIN's steps and the issued operations only SET_FM writes them. -/
theorem onlySetFmChangesTheStoredFilter : Obligations.OnlySetFmChangesTheStoredFilter := by
  intro s t u r hs h hne
  have changed : storedFilter t ≠ storedFilter s := by
    rintro heq
    obtain ⟨hf, hm⟩ := Prod.mk.inj heq
    exact hne.elim (absurd hf) (absurd hm)
  cases step_moves hs h with
  | ingest _ h =>
    obtain ⟨-, hst, -⟩ := h.keeps
    exact absurd (by rw [storedFilter, hst, storedFilter]) changed
  | main ha h => exact .inl ⟨rfl, ha, h.filter.resolve_left changed⟩
  | env _ h =>
    obtain ⟨-, hst, -⟩ := envTurn_keeps h
    exact absurd (by rw [storedFilter, hst, storedFilter]) changed
  | issued lvl c h =>
    cases h with
    | sends ht | menu ht => exact absurd (ht ▸ rfl) changed
    | runs i p q w v hd runs ht =>
      subst ht
      obtain ⟨f, m, rfl⟩ := runs.filter.resolve_left changed
      exact .inr ⟨lvl, c, f, m, rfl, hd⟩

/-! ### The mode -/

/-- MAIN is in no operation, or in one that QUIT has not called. -/
def outsideQuit (s : State) : Prop := ∀ l, s.main.op = some l → l ≠ .q1 ∧ s.main.caller ≠ .quit

theorem LabelRes.outsideQuit {l : Label} (h : LabelRes s l (.next t)) (hq : s.main.caller ≠ .quit) : outsideQuit t := by
  cases h with
  | t4_quit h => exact absurd h hq
  | _ =>
    intro l' hl'
    cases hl' <;> exact ⟨nofun, hq⟩

theorem CallRes.outsideQuit {who : Caller} {c : Call} (h : CallRes who s c (.next t)) (ho : s.main.op = none)
    (hw : who ≠ .quit) : outsideQuit t := by
  cases h with
  | begins _ _ _ _ h => exact h.outsideQuit hw
  | _ =>
    intro l hl
    cases ho.symm.trans hl

/-- Inside an operation EXT makes the mode Configuring, and the write q1 of QUIT makes it Capturing. -/
theorem InsideMoves.mode (h : InsideMoves s t u) :
    t.mode = s.mode ∨ (u = .ext ∧ t.mode = .configuring) ∨
      (s.ing.active = false ∧ s.main.op = some .q1 ∧ t = opReturn (setPos .m0 { s with mode := .capturing })) := by
  cases h with
  | ingest _ h =>
    obtain ⟨-, -, mode, -⟩ := h.keeps
    exact .inl mode
  | label l ha ho h =>
    obtain mode | ⟨rfl, writes⟩ := h.mode
    · exact .inl mode
    · exact .inr (.inr ⟨ha, ho, writes⟩)
  | idle ht => exact .inl (ht ▸ rfl)
  | env _ h =>
    obtain ⟨-, -, mode | ext, -⟩ := envTurn_keeps h
    · exact .inl mode
    · exact .inr (.inl ext)

theorem InsideMoves.captures (h : InsideMoves s t u) (hs : s.mode ≠ .capturing) (ht : t.mode = .capturing) :
    s.ing.active = false ∧ s.main.op = some .q1 ∧ t = opReturn (setPos .m0 { s with mode := .capturing }) := by
  obtain mode | ⟨-, mode⟩ | writes := h.mode
  · exact absurd (mode.symm.trans ht) hs
  · exact absurd (mode.symm.trans ht) nofun
  · exact writes

theorem InsideMoves.configures (h : InsideMoves s t u) (hs : s.mode ≠ .configuring) (ht : t.mode = .configuring) :
    u = .ext := by
  obtain mode | ⟨hu, -⟩ | ⟨-, -, rfl⟩ := h.mode
  · exact absurd (mode.symm.trans ht) hs
  · exact hu
  · cases ht

theorem InsideMoves.outsideQuit (h : InsideMoves s t u) (hs : outsideQuit s) : outsideQuit t := by
  have same (hm : t.main = s.main) : Machine.outsideQuit t := fun l => by
    rw [hm]
    exact hs l
  cases h with
  | ingest _ h =>
    obtain ⟨-, -, -, -, hm⟩ := h.keeps
    exact same hm
  | label l _ ho h => exact h.outsideQuit (hs l ho).2
  | idle ht => exact same (by rw [ht])
  | env _ h =>
    obtain ⟨-, -, -, -, hm, -⟩ := envTurn_keeps h
    exact same hm

theorem InsideMoves.sched (h : InsideMoves s t u) : t.sched = s.sched := by
  cases h with
  | ingest _ h => exact h.keeps.1
  | label _ _ _ h => exact h.sched
  | idle ht => rw [ht]
  | env _ h => exact (envTurn_keeps h).1

/-- An operation QUIT has not called leaves the mode as it is, or EXT has made it Configuring. -/
theorem mainGoesOn_outsideQuit (h : mainGoesOn s = .next t) (hs : outsideQuit s) (hm : s.mode ≠ .capturing) :
    t.mode ≠ .capturing := by
  obtain ⟨-, -, -, ⟨-, ht⟩, -⟩ := carryOn_keeps (P := fun _ v => outsideQuit v ∧ v.mode ≠ .capturing)
    (fun u r v w _ _ ⟨hq, hv⟩ hw => ⟨(turnInside_moves hw).outsideQuit hq, fun hc => by
      obtain ⟨-, ho, -⟩ := (turnInside_moves hw).captures hv hc
      exact absurd rfl (hq _ ho).1⟩) s.sched s t ⟨hs, hm⟩ h
  exact ht

/-- MAIN takes no step inside an issued invocation. -/
theorem runIngest_captures (h : runIngest s = .next t) (hm : s.mode ≠ .capturing) : t.mode ≠ .capturing := by
  obtain ⟨-, -, -, ht, -⟩ := carryOn_keeps (P := fun _ v => v.mode ≠ .capturing)
    (fun u r v w hb _ hv hw hc => by
      obtain ⟨ha, -⟩ := (turnInside_moves hw).captures hv hc
      exact absurd (ha.symm.trans hb) nofun) s.sched (enterIngest s) t hm h
  exact ht

/-- Where a run of QUIT has made the mode Capturing, QUIT has returned, with the block armed (46 R201). -/
def capturesArmed (s : State) : Prop :=
  s.mode = .capturing → s.main.op = none ∧ s.per.rxie = true ∧ s.st.configured = true

theorem mainGoesOn_capturesArmed (hi : BlockInv s) (h : mainGoesOn s = .next t) (hs : capturesArmed s) :
    capturesArmed t := by
  obtain ⟨-, -, -, ⟨-, ht⟩, -⟩ := carryOn_keeps (P := fun _ v => BlockInv v ∧ capturesArmed v)
    (fun u r v w hb _ ⟨hv, hc⟩ hw => by
      have listed := hv.keptBy_withSched r
      have kept := turnInside_sound listed u
      rw [hw] at kept
      refine ⟨kept, fun hcap => ?_⟩
      have before : v.mode ≠ .capturing := fun hm => by simp [opInProgress, (hc hm).1] at hb
      obtain ⟨-, ho, rfl⟩ := (turnInside_moves hw).captures before hcap
      have armed := listed.control.atLabel ho
      exact ⟨rfl, armed, (listed.control.armed armed).2⟩) s.sched s t ⟨hi, hs⟩ h
  exact ht

/-- A run in which the mode has become Configuring took a turn of EXT. -/
theorem carryOn_configures {busy : State → Bool} (h : carryOn busy s.sched s = .next t) (hs : s.mode ≠ .configuring)
    (ht : t.mode = .configuring) : ∃ p, s.sched = p ++ t.sched ∧ Turn.ext ∈ p := by
  obtain ⟨-, r, -, ⟨rfl, p, hp, hext⟩, -⟩ := carryOn_keeps
    (P := fun r v => v.sched = r ∧ ∃ p, s.sched = p ++ r ∧ (v.mode = .configuring → Turn.ext ∈ p))
    (fun u r v w _ _ ⟨_, p, hp, hv⟩ hw => by
      refine ⟨(turnInside_moves hw).sched, p ++ [u], by rw [hp, List.append_assoc]; rfl, fun hm => ?_⟩
      by_cases hc : v.mode = .configuring
      · exact List.mem_append_left _ (hv hc)
      · simp [(turnInside_moves hw).configures hc hm]) s.sched s t ⟨rfl, [], rfl, fun hm => absurd hm hs⟩ h
  exact ⟨p, hp, hext ht⟩

/-- Of the issued operations only QUIT makes the mode Capturing, with the block armed. -/
theorem ExecRes.captures {i : Instr} (h : ExecRes s i (.next t)) (hi : BlockInv s) (hm : s.mode ≠ .capturing)
    (ht : t.mode = .capturing) :
    i = .quit ∧ s.level = .dlg ∧ t.per.rxie = true ∧ t.st.configured = true := by
  cases h with
  | sends | queues | menu => exact absurd ht hm
  | requests => cases ht
  | calls c hb _ h =>
    obtain ⟨v, hv, hgo⟩ := andThen_eq_next.1 h
    obtain ⟨ho, -, -⟩ := mainBusy_eq_false.1 hb
    have first := callStep_next hv
    have caller : callerAt s.level ≠ .quit := by cases s.level <;> nofun
    exact absurd ht (mainGoesOn_outsideQuit hgo (first.outsideQuit ho caller) (first.mode ▸ hm))
  | quits hl hb _ h =>
    obtain ⟨v, hv, hgo⟩ := andThen_eq_next.1 h
    obtain ⟨ho, ha, -⟩ := mainBusy_eq_false.1 hb
    have kept := beginQuit_sound hi ho ha
    rw [hv] at kept
    have mode : v.mode = s.mode := (beginQuit_next hv).mode.resolve_right (by simp)
    obtain ⟨-, armed⟩ := mainGoesOn_capturesArmed kept hgo (fun hc => absurd (mode.symm.trans hc) hm) ht
    exact ⟨rfl, hl, armed⟩
  | ingests _ _ h => exact absurd ht (runIngest_captures h hm)
  | pushes f _ h =>
    obtain ⟨v, hv, hr⟩ := andThen_eq_next.1 h
    cases hr
    cases hv ▸ ringPush_res f s <;> exact absurd ht hm
  | arrives f =>
    obtain ⟨-, -, mode, -⟩ := busArrives_keeps f s
    exact absurd (mode.symm.trans ht) hm

/-- Of the issued operations only EXT_REQ, or one inside which EXT takes a turn, makes the mode Configuring. -/
theorem ExecRes.configures {i : Instr} (h : ExecRes s i (.next t)) (hm : s.mode ≠ .configuring)
    (ht : t.mode = .configuring) : i = .extReq ∨ ∃ p, s.sched = p ++ t.sched ∧ Turn.ext ∈ p := by
  cases h with
  | sends | queues | menu => exact absurd ht hm
  | requests => exact .inl rfl
  | calls c hb _ h =>
    obtain ⟨v, hv, hgo⟩ := andThen_eq_next.1 h
    have first := callStep_next hv
    exact .inr (first.sched ▸ carryOn_configures hgo (first.mode ▸ hm) ht)
  | quits hl hb _ h =>
    obtain ⟨v, hv, hgo⟩ := andThen_eq_next.1 h
    have first := beginQuit_next hv
    exact .inr (first.sched ▸ carryOn_configures hgo (first.mode.resolve_right (by simp) ▸ hm) ht)
  | ingests _ _ h => exact .inr (carryOn_configures (s := enterIngest s) h hm ht)
  | pushes f _ h =>
    obtain ⟨v, hv, hr⟩ := andThen_eq_next.1 h
    cases hr
    cases hv ▸ ringPush_res f s <;> exact absurd ht hm
  | arrives f =>
    obtain ⟨-, -, mode, -⟩ := busArrives_keeps f s
    exact absurd (mode.symm.trans ht) hm

theorem TurnMoves.captures (h : TurnMoves s t u) (hi : BlockInv s) (hm : s.mode ≠ .capturing)
    (ht : t.mode = .capturing) :
    t.per.rxie = true ∧ t.st.configured = true ∧
      ((u = .cpu ∧ s.ing.active = false ∧ s.main.op = some .q1) ∨ ∃ c, u = .op .dlg c ∧ decode c = .ok .quit) := by
  cases h with
  | ingest _ h =>
    obtain ⟨-, -, mode, -⟩ := h.keeps
    exact absurd (mode.symm.trans ht) hm
  | main ha h =>
    obtain mode | ⟨ho, -, hper, hst⟩ := h.mode
    · exact absurd (mode.symm.trans ht) hm
    · have armed := hi.control.atLabel ho
      rw [hper, hst]
      exact ⟨armed, (hi.control.armed armed).2, .inl ⟨rfl, ha, ho⟩⟩
  | env _ h =>
    obtain ⟨-, -, mode | ⟨-, mode⟩, -⟩ := envTurn_keeps h
    · exact absurd (mode.symm.trans ht) hm
    · exact absurd (mode.symm.trans ht) nofun
  | issued lvl c h =>
    cases h with
    | sends hs | menu hs =>
      subst hs
      exact absurd ht hm
    | runs i p q w v hd h hs =>
      subst hs
      obtain ⟨rfl, rfl, hx, hc⟩ := h.captures (hi.of_same rfl) hm ht
      exact ⟨hx, hc, .inr ⟨c, rfl, hd⟩⟩

theorem TurnMoves.configures (h : TurnMoves s t u) (hm : s.mode ≠ .configuring) (ht : t.mode = .configuring) :
    u = .ext ∨ ∃ lvl c, u = .op lvl c ∧ (decode c = .ok .extReq ∨ ∃ p, s.sched = p ++ t.sched ∧ Turn.ext ∈ p) := by
  cases h with
  | ingest _ h =>
    obtain ⟨-, -, mode, -⟩ := h.keeps
    exact absurd (mode.symm.trans ht) hm
  | main _ h =>
    obtain mode | ⟨-, mode, -⟩ := h.mode
    · exact absurd (mode.symm.trans ht) hm
    · exact absurd (mode.symm.trans ht) nofun
  | env _ h =>
    obtain ⟨-, -, mode | ⟨hu, -⟩, -⟩ := envTurn_keeps h
    · exact absurd (mode.symm.trans ht) hm
    · exact .inl hu
  | issued lvl c h =>
    cases h with
    | sends hs | menu hs =>
      subst hs
      exact absurd ht hm
    | runs i p q w v hd h hs =>
      subst hs
      obtain rfl | hext := h.configures hm ht
      · exact .inr ⟨lvl, c, rfl, .inl hd⟩
      · exact .inr ⟨lvl, c, rfl, .inr hext⟩

end

/-- Settles O20: the two directions, each for the turn taken. -/
theorem onlyQuitCapturesOnlyExtConfigures : Obligations.OnlyQuitCapturesOnlyExtConfigures := by
  refine ⟨rfl, fun s t u r hi hs h => ⟨fun hm ht => ?_, fun hm ht => ?_⟩⟩
  · exact (step_moves hs h).captures (hi.keptBy_withSched r) (by simp [hm]) ht
  · exact (step_moves hs h).configures (by simp [hm]) ht

/-! ### The state at power-on, and the numbered registers (10 R45, R47) -/

/-- Settles O14: each value is written in `State.reset`. -/
theorem powerOnValues : Obligations.PowerOnValues := by
  refine ⟨?_, ?_, ?_, ?_, ?_, ?_, ?_, ?_, ?_, ?_, ?_, ?_, ?_, fun i => Memory.read_nil i⟩ <;> rfl

/-- The ring is empty and nothing has been stored or emitted; `zeroFrame` is a Frame (logs 3, 6, 7). -/
theorem dataInv_reset : DataInv State.reset where
  params := by decide
  st1 _ := rfl
  st2 := by decide
  filter := by decide
  indices := by decide
  slots := Memory.wf_reset
  frames _ _ := nofun
  held _ hj := absurd hj (Nat.not_lt_zero _)
  queue := by decide
  events _ := nofun
  locals := by decide

/-- No operation and no invocation is in progress, and the block is not configured. -/
theorem controlInv_reset : ControlInv State.reset :=
  .of_atLabel nofun nofun nofun fun _ => nofun

theorem loopInv_reset : LoopInv State.reset where
  place _ := nofun
  callers := ⟨rfl, fun _ => nofun⟩
  dialog := nofun
  quitting := nofun
  starting := ⟨nofun, nofun, nofun⟩
  probe := nofun
  stopping := ⟨nofun, nofun⟩
  armed := nofun
  capture := nofun
  mode := nofun
  invocation := nofun

/-- Settles O15: clause by clause, from the values of `State.reset`. -/
theorem invariantsHoldAtPowerOn : Obligations.InvariantsHoldAtPowerOn :=
  ⟨⟨dataInv_reset, controlInv_reset⟩, loopInv_reset⟩

/-- A one-bit register reads 0 or 1. -/
theorem bits_ofBool (b : Bool) : some (RegValue.bits 1 b.toNat) = some (.bits 1 (if b = true then 1 else 0)) := by
  cases b <;> rfl

theorem readReg_mode (s : State) : readReg 8 s = some (.bits 1 (if s.mode = .capturing then 1 else 0)) := by
  unfold readReg
  cases s.mode <;> rfl

/-- Settles O60: every number by its row of the table; from 18 on there is none. -/
theorem numberedRegistersReadTheirFields : Obligations.NumberedRegistersReadTheirFields := by
  intro s
  refine ⟨bits_ofBool _, rfl, rfl, rfl, rfl, rfl, bits_ofBool _, bits_ofBool _, readReg_mode s, rfl, rfl, rfl, rfl, rfl,
    bits_ofBool _, bits_ofBool _, bits_ofBool _, rfl, fun n hn => ?_⟩
  obtain ⟨k, rfl⟩ := Nat.exists_eq_add_of_le' hn
  rfl

end Sys2Proof.Machine
end

section
/-! Every turn keeps the order of the frames on their way through the block, and adds at most the one BUS brings
(20_memory.md R70, 45_forwarder.md R187). -/

namespace Sys2Proof.Machine

section
variable {s t : State}

/-! ### The stages of the pipeline -/

/-- The frame DRAIN has released and is about to forward. -/
def leaving (s : State) : List (Option Frame) := if s.main.op = some .d8 then [some s.main.fwF] else []

/-- The frame an invocation has taken and is about to push. -/
def inHand (s : State) : List (Option Frame) :=
  if s.ing.active = true ∧ s.ing.pos = .i5 then [some s.ing.f] else []

theorem pipeline_stages (s : State) :
    pipeline s = (forwarded s.out).map some ++ leaving s ++ ringHeld s ++ inHand s ++ s.per.rxq.map some := rfl

theorem leaving_eq_nil (h : s.main.op ≠ some .d8) : leaving s = [] := if_neg h

theorem leaving_at_d8 (h : s.main.op = some .d8) : leaving s = [some s.main.fwF] := if_pos h

theorem inHand_eq_nil (h : s.ing.active = true → s.ing.pos ≠ .i5) : inHand s = [] :=
  if_neg fun ⟨ha, hp⟩ => h ha hp

theorem inHand_at_i5 (ha : s.ing.active = true) (hp : s.ing.pos = .i5) : inHand s = [some s.ing.f] :=
  if_pos ⟨ha, hp⟩

theorem forwarded_append (o p : List Event) : forwarded (o ++ p) = forwarded o ++ forwarded p := List.filterMap_append

/-- Frames that stay at their stage or are dropped there keep their order. -/
theorem pipeline_sublist (hout : forwarded t.out = forwarded s.out) (hl : (leaving t).Sublist (leaving s))
    (hr : (ringHeld t).Sublist (ringHeld s)) (hh : (inHand t).Sublist (inHand s)) (hq : t.per.rxq.Sublist s.per.rxq) :
    (pipeline t).Sublist (pipeline s) := by
  rw [pipeline_stages, pipeline_stages, hout]
  exact ((((List.Sublist.refl _).append hl).append hr).append hh).append (hq.map some)

theorem forwarded_sublist_pipeline (s : State) : ((forwarded s.out).map some).Sublist (pipeline s) := by
  simp only [pipeline_stages, List.append_assoc]
  exact List.sublist_append_left _ _

/-! ### MAIN's labelled steps, stage by stage -/

/-- A stop drops frames of the hardware queue and reorders none (41 R123). -/
theorem perStop_rxq_sublist (s : State) : (perStop s).per.rxq.Sublist s.per.rxq := by
  rw [perStop_per]
  split
  · exact List.nil_sublist _
  · exact List.Sublist.refl _

section
variable {l : Label}

theorem LabelRes.ing_eq (h : LabelRes s l (.next t)) : t.ing = s.ing := by cases h <;> rfl

/-- Only d8 forwards a frame (45 R187). -/
theorem LabelRes.forwarded_eq (h : LabelRes s l (.next t)) (hl : l ≠ .d8) : forwarded t.out = forwarded s.out := by
  cases h with
  | t1_failsQuit | d2_reports | d4_reports => exact (forwarded_append s.out _).trans (List.append_nil _)
  | d8 => exact absurd rfl hl
  | _ => rfl

/-- Only d7 is followed by d8. -/
theorem LabelRes.noneLeaving (h : LabelRes s l (.next t)) (hl : l ≠ .d7) : leaving t = [] := by
  cases h with
  | d7 => exact absurd rfl hl
  | _ => exact leaving_eq_nil nofun

theorem LabelRes.rxq_sublist (h : LabelRes s l (.next t)) : t.per.rxq.Sublist s.per.rxq := by
  cases h with
  | s2 | a7 => exact perStop_rxq_sublist s
  | _ => exact List.Sublist.refl _

/-- Of MAIN's labelled steps only d7 and STOP's reset of the ring write the ring (41 R124, 45 R186). -/
theorem LabelRes.ringHeld_sublist (h : LabelRes s l (.next t)) (hl : l ≠ .d7) :
    (ringHeld t).Sublist (ringHeld s) := by
  cases h with
  | s3 => exact ringHeld_reset s ▸ List.nil_sublist _
  | d7 => exact absurd rfl hl
  | _ => exact List.Sublist.refl _

/-- The frame in MAIN's copy is the oldest one held; d7 releases its slot (45 R186). -/
theorem BlockInv.ringHeld_d7 (h : BlockInv s) (ho : s.main.op = some .d7) (hr : LabelRes s .d7 (.next t)) :
    ringHeld s = leaving t ++ ringHeld t := by
  obtain ⟨⟨htail, hne⟩, hcopy⟩ := h.control.atLabel ho
  cases hr with
  | d7 => exact ringHeld_pop h.data.indices.1 h.data.indices.2 hne hcopy (by rw [← htail]; rfl) rfl

/-- At d7 the oldest frame held becomes the one about to leave, at d8 that one leaves; elsewhere MAIN moves no frame. -/
theorem LabelRes.keepsOrder (h : BlockInv s) (ho : s.main.op = some l) (hr : LabelRes s l (.next t)) :
    (pipeline t).Sublist (pipeline s) := by
  have hand : inHand t = inHand s := by simp only [inHand, hr.ing_eq]
  by_cases h7 : l = .d7
  · subst h7
    rw [pipeline_stages, pipeline_stages, hand, hr.forwarded_eq nofun, leaving_eq_nil (s := s) (by simp [ho]),
      h.ringHeld_d7 ho hr, List.append_nil, ← List.append_assoc]
    exact (List.Sublist.refl _).append (hr.rxq_sublist.map some)
  by_cases h8 : l = .d8
  · subst h8
    rw [pipeline_stages, pipeline_stages, hand, hr.noneLeaving nofun, leaving_at_d8 ho, List.append_nil]
    cases hr with
    | d8 =>
      rw [goto_out, emit_out, forwarded_append, List.map_append]
      exact List.Sublist.refl _
  · exact pipeline_sublist (hr.forwarded_eq h8) (hr.noneLeaving h7 ▸ List.nil_sublist _) (hr.ringHeld_sublist h7)
      (hand ▸ List.Sublist.refl _) hr.rxq_sublist

end

/-! ### MAIN's step -/

/-- A call finds no frame about to leave; a pop takes the oldest frame held, a reset all of them. -/
theorem CallRes.keepsOrder {who : Caller} {c : Call} (h : BlockInv s) (ho : s.main.op = none)
    (hr : CallRes who s c (.next t)) : (pipeline t).Sublist (pipeline s) := by
  have refl {l : List (Option Frame)} : l.Sublist l := List.Sublist.refl l
  cases hr with
  | begins _ l hl _ hr =>
    have begun : leaving (goto l (calledBy who s)) = [] :=
      leaving_eq_nil fun h8 => by simpa [Option.some.inj h8] using Call.firstLabel_cases hl
    exact (hr.keepsOrder (h.keptBy_begin ho who hl) rfl).trans
      (pipeline_sublist rfl (begun ▸ List.nil_sublist _) refl refl (List.Sublist.refl _))
  | found | missing | stores | answers | popsNone => exact refl
  | prints =>
    exact pipeline_sublist ((forwarded_append s.out _).trans (List.append_nil _)) refl refl refl (List.Sublist.refl _)
  | pops f hne hf =>
    have held := ringHeld_pop (t := returns (.frame (some f)) (setTail (reduceIndex s.cfg (s.rb.tail + 1)) s))
      h.data.indices.1 h.data.indices.2 hne hf rfl rfl
    exact pipeline_sublist rfl refl (held ▸ List.sublist_cons_self _ _) refl (List.Sublist.refl _)
  | resets =>
    exact pipeline_sublist rfl refl (ringHeld_reset s ▸ List.nil_sublist _) refl (List.Sublist.refl _)

theorem pipeline_setPos (p : MainPos) (s : State) : pipeline (setPos p s) = pipeline s := rfl

theorem pipeline_menu (s : State) : pipeline (menu s) = pipeline s := by
  have same : forwarded (menu s).out = forwarded s.out := (forwarded_append s.out _).trans (List.append_nil _)
  rw [pipeline_stages, pipeline_stages, same]
  rfl

/-- The loop itself moves no frame: the operations it calls do. -/
theorem LoopRes.keepsOrder (h : BlockInv s) (ho : s.main.op = none) (hr : LoopRes s (.next t)) :
    (pipeline t).Sublist (pipeline s) := by
  cases hr with
  | configuring | capturing | blocks | reads => exact List.Sublist.refl _
  | menu => exact (pipeline_menu { s with level := .dlg }) ▸ List.Sublist.refl _
  | calls c lvl _ _ hr =>
    obtain ⟨v, p, hv, rfl⟩ := loopCall_next hr
    rw [pipeline_setPos]
    exact CallRes.keepsOrder (s := { s with level := lvl }) (h.keptBy_withLevel lvl) ho hv
  | quits _ _ _ hr =>
    have asStart : CallRes .quit { s with level := .dlg } .start (.next t) :=
      .begins .start .t1 rfl _ (beginQuit_next hr)
    exact CallRes.keepsOrder (s := { s with level := .dlg }) (h.keptBy_withLevel .dlg) ho asStart

theorem mainStep_keepsOrder (h : BlockInv s) (ht : mainStep s = .next t) : (pipeline t).Sublist (pipeline s) := by
  cases ho : s.main.op with
  | some l =>
    obtain ⟨v, p, hv, rfl⟩ := goOn_next ho (mainStep_op ho ▸ ht)
    rw [pipeline_setPos]
    exact hv.keepsOrder h ho
  | none =>
    cases hc : s.calls with
    | cons c q =>
      rw [mainStep_call ho hc] at ht
      exact CallRes.keepsOrder (s := { s with calls := q }) (h.keptBy_withCalls q) ho (callStep_next ht)
    | nil =>
      rw [mainStep_loop ho hc] at ht
      exact LoopRes.keepsOrder h ho (ht ▸ loopStep_res s)

/-! ### The Ingest Path and the other agents -/

/-- At i4 the oldest frame of the hardware queue is taken in hand; at i5 it joins the ring as the newest held, or is
dropped on a full ring (44 R171, R172). -/
theorem IsrRes.keepsOrder (h : BlockInv s) (ha : s.ing.active = true) (hr : IsrRes s (.next t)) :
    (pipeline t).Sublist (pipeline s) := by
  have emptyHanded (hp : t.ing.pos ≠ .i5) (hout : t.out = s.out) (hm : leaving t = leaving s)
      (hr : ringHeld t = ringHeld s) (hq : t.per.rxq = s.per.rxq) : (pipeline t).Sublist (pipeline s) :=
    pipeline_sublist (congrArg forwarded hout) (by rw [hm]) (by rw [hr])
      (inHand_eq_nil (fun _ => hp) ▸ List.nil_sublist _) (by rw [hq])
  cases hr with
  | i4 f q hp hq =>
    rw [pipeline_stages, pipeline_stages, inHand_eq_nil (s := s) (by simp [hp]),
      inHand_at_i5 (s := setIngPos .i5 _) ?_ rfl, hq]
    · simp only [List.map_cons, List.append_assoc]
      exact List.Sublist.refl _
    · exact ha
  | i5_stores hp hf =>
    have held := ringHeld_push (t := pushed s.ing.f s) h.data.indices.1 h.data.indices.2 hf rfl rfl
    rw [pipeline_stages, pipeline_stages, inHand_eq_nil (s := setIngPos .i3 _) (fun _ => nofun),
      inHand_at_i5 ha hp, List.append_nil, List.append_assoc _ (ringHeld s)]
    exact held ▸ List.Sublist.refl _
  | _ => exact emptyHanded nofun rfl rfl rfl rfl

/-- BUS puts its frame behind all others or loses it; no other agent moves a frame (44 R167). -/
theorem envTurn_keepsOrder {u : Turn} (h : envTurn u s = .next t) :
    (pipeline t).Sublist (pipeline s ++ (arrivals [u]).map some) := by
  have unmoved (he : pipeline t = pipeline s) : (pipeline t).Sublist (pipeline s ++ (arrivals [u]).map some) :=
    he ▸ List.sublist_append_left _ _
  obtain ⟨hi, rfl⟩ | ⟨f, -, rfl, rfl⟩ | ⟨-, rfl⟩ | ⟨c, -, rfl⟩ | rfl := envTurn_cases h
  · have idle : s.ing.active = false := by simpa using (Bool.and_eq_true_iff.1 hi).2
    refine unmoved ?_
    rw [pipeline_stages, pipeline_stages, inHand_eq_nil (s := s) (by simp [idle]),
      inHand_eq_nil (s := enterIngest s) (fun _ => nofun)]
    rfl
  · obtain hs | ⟨-, -, hs⟩ | ⟨-, -, hs⟩ := busArrives_cases f s
    · exact unmoved (congrArg pipeline hs)
    · rw [hs, pipeline_stages, pipeline_stages, List.map_append, List.append_assoc _ (List.map some s.per.rxq)]
      exact List.Sublist.refl _
    · exact unmoved (hs ▸ rfl)
  all_goals exact unmoved rfl

/-! ### A turn, and a run -/

theorem takeTurn_keepsOrder {u : Turn} (h : BlockInv s) (hu : loopTurn u) (ht : takeTurn u s = .next t) :
    (pipeline t).Sublist (pipeline s ++ (arrivals [u]).map some) := by
  cases u with
  | cpu =>
    refine List.Sublist.trans ?_ (List.sublist_append_left _ _)
    simp only [takeTurn] at ht
    split at ht
    next ha => exact IsrRes.keepsOrder h ha (ht ▸ isrStep_res s)
    next => exact mainStep_keepsOrder h ht
  | op => exact hu.elim
  | irq | bus | ext | user => exact envTurn_keepsOrder ht

theorem MainMoves.sched (h : MainMoves s t) : t.sched = s.sched := by
  cases h with
  | inside _ _ _ _ h ht => exact ht ▸ h.sched
  | waited _ _ _ _ h => exact h.sched
  | calls _ _ _ _ _ _ _ h ht => exact ht ▸ h.sched
  | quits _ h => exact h.sched
  | moves _ _ _ _ _ ht => exact ht ▸ rfl

/-- A turn without an issued word takes no turn but itself from the list. -/
theorem TurnMoves.sched {u : Turn} (h : TurnMoves s t u) (hu : loopTurn u) : t.sched = s.sched := by
  cases h with
  | ingest _ h => exact h.keeps.1
  | main _ h => exact h.sched
  | env _ h => exact (envTurn_keeps h).1
  | issued => exact hu.elim

/-- Over a run without issued words no frame overtakes another and none is duplicated, at any stage. -/
theorem steps_keepsOrder {us r : List Turn} (h : BlockInv s) (hu : ∀ u ∈ us, loopTurn u) (hs : s.sched = us ++ r)
    (ht : steps us.length s = .next t) : (pipeline t).Sublist (pipeline s ++ (arrivals us).map some) := by
  induction us generalizing s with
  | nil =>
    cases ht
    exact List.sublist_append_left _ _
  | cons u us ih =>
    obtain ⟨hu, hus⟩ := List.forall_mem_cons.1 hu
    obtain ⟨v, hv, ht⟩ := andThen_eq_next.1 ht
    have first : (pipeline v).Sublist (pipeline s ++ (arrivals [u]).map some) :=
      takeTurn_keepsOrder (s := { s with sched := us ++ r }) (h.keptBy_withSched _) hu ((step_listed hs).symm.trans hv)
    have rest := ih (everyStepKeepsInv s v h hv) hus ((step_moves hs hv).sched hu) ht
    have arrive : arrivals (u :: us) = arrivals [u] ++ arrivals us := List.filterMap_append (l := [u])
    rw [arrive, List.map_append, ← List.append_assoc]
    exact rest.trans (first.append (List.Sublist.refl _))

end

/-- Settles O24: the frames forwarded are the first stage of the pipeline, of which every turn keeps the order. -/
theorem framesAreForwardedInArrivalOrder : Obligations.FramesAreForwardedInArrivalOrder :=
  fun _ _ _ t h hu hs ht => (forwarded_sublist_pipeline t).trans (steps_keepsOrder h hu hs ht)

end Sys2Proof.Machine
end

section
/-! What the decoder accepts, reads and rejects (30_encoding.md R79 to R89), that the encoder writes what the decoder reads,
and what comes of the words issued (R87, R89; log 18). -/

namespace Sys2Proof

/-! ### The fields of a word (30 R77, R79, R80) -/

theorem argOf_getLsbD_zero (c : PortWord) : (argOf c).getLsbD 0 = c.getLsbD 4 := by
  simp [argOf]

/-- The length of an F108 word's Frame stands on lines 43:36. -/
theorem frameOf_length (c : PortWord) : (frameOf c).length = c.extractLsb' 36 8 := by
  apply BitVec.eq_of_getLsbD_eq
  intro i hi
  simp [frameOf, frameOfWord, hi, show 32 + i < 104 by omega, ← Nat.add_assoc]

/-- The code and the operand are all that lines 35:0 hold. -/
theorem lines36_ext {c d : PortWord} (hop : opOf c = opOf d) (harg : argOf c = argOf d) :
    c.extractLsb' 0 36 = d.extractLsb' 0 36 := by
  have parts (w : PortWord) : argOf w ++ opOf w = w.extractLsb' 0 36 := append_extract w 4 0 32 4 rfl
  rw [← parts c, ← parts d, hop, harg]

/-- The code and the Frame are all that the 108 lines hold. -/
theorem lines108_ext {c d : PortWord} (hop : opOf c = opOf d) (hf : frameOf c = frameOf d) : c = d := by
  have whole (w : PortWord) : word108 (opOf w) (frameOf w) = w := by
    rw [word108, frameOf, frameWord_frameOfWord, opOf, append_extract w 4 0 104 4 rfl]
    exact extract_whole w
  rw [← whole c, ← whole d, hop, hf]

theorem halves_append (x : U32) : x.extractLsb' 16 16 ++ x.extractLsb' 0 16 = x :=
  (append_extract x 16 0 16 16 rfl).trans (extract_whole x)

theorem high_half_append (m f : U16) : (m ++ f).extractLsb' 16 16 = m :=
  (extract_append_high 16 m f 16 (Nat.le_refl 16)).trans (extract_whole m)

theorem argFlag_getLsbD_zero (b : Bool) : (argFlag b).getLsbD 0 = b := by
  cases b <;> rfl

/-! ### The decoder (30 R81 to R89) -/

/-- The operand of `i` is what the word holds on its lines (30 R79, R80, R82, R86). -/
def operandRead (c : PortWord) (i : Instr) : Prop :=
  match i with
  | .cfgManual b => b = argOf c
  | .cfgAuto v => v = (argOf c).getLsbD 0
  | .setFm f m => f = (argOf c).extractLsb' 0 16 ∧ m = (argOf c).extractLsb' 16 16
  | .getStatus p => p = (argOf c).getLsbD 0
  | .rbPush f => f = frameOf c
  | .busRx f => f = frameOf c
  | .start | .stop | .drain | .quit | .extReq | .ingest | .rbPop | .rbReset | .reserved0 | .reservedF => True

theorem decodeFrameOp_eq_ok_iff {mk : Frame → Instr} {c : PortWord} {i : Instr} :
    decodeFrameOp mk c = .ok i ↔ (frameOf c).wf ∧ i = mk (frameOf c) := by
  unfold decodeFrameOp
  split
  next hf => simp [hf, eq_comm]
  next hf => simp [hf]

theorem decodeFrameOp_isError_iff {mk : Frame → Instr} {c : PortWord} :
    (∃ e, decodeFrameOp mk c = .error e) ↔ ¬(frameOf c).wf := by
  unfold decodeFrameOp
  split
  next hf => simp [hf]
  next hf => exact ⟨fun _ => hf, fun _ => ⟨_, rfl⟩⟩

/-- A word that decodes holds its operation's code and operand. -/
theorem decode_reads {c : PortWord} {i : Instr} (h : decode c = .ok i) : opOf c = i.opcode ∧ operandRead c i := by
  unfold decode at h
  split at h
  case h_12 hop | h_15 hop =>
    obtain ⟨-, rfl⟩ := decodeFrameOp_eq_ok_iff.1 h
    exact ⟨BitVec.eq_of_toNat_eq hop, rfl⟩
  case h_16 =>
    cases h
    have below := (opOf c).isLt
    simp only [imp_false] at *
    have last : (opOf c).toNat = 0xF := by omega
    exact ⟨BitVec.eq_of_toNat_eq last, trivial⟩
  all_goals
    cases h
    exact ⟨BitVec.eq_of_toNat_eq ‹_›, by simp only [operandRead, and_self]⟩

/-- A word that holds a well-formed operation's code and operand decodes to it. -/
theorem decode_of_reads {c : PortWord} {i : Instr} (hwf : i.wf) (hop : opOf c = i.opcode) (hc : operandRead c i) :
    decode c = .ok i := by
  unfold decode
  rw [hop]
  cases i with
  | cfgManual b | cfgAuto v | getStatus p => rw [hc]; rfl
  | setFm f m => rw [hc.1, hc.2]; rfl
  | rbPush f => exact decodeFrameOp_eq_ok_iff.2 ⟨hc ▸ hwf, congrArg _ hc⟩
  | busRx f => exact decodeFrameOp_eq_ok_iff.2 ⟨hc ▸ hwf, congrArg _ hc⟩
  | start | stop | drain | quit | extReq | ingest | rbPop | rbReset | reserved0 | reservedF => rfl

/-- What the decoder accepts. -/
theorem decode_eq_ok_iff {c : PortWord} {i : Instr} :
    decode c = .ok i ↔ i.wf ∧ opOf c = i.opcode ∧ operandRead c i :=
  ⟨fun h => ⟨Machine.decode_wf h, decode_reads h⟩, fun ⟨hwf, hop, hc⟩ => decode_of_reads hwf hop hc⟩

/-- What the decoder rejects (30 R89). -/
theorem decode_isError_iff {c : PortWord} :
    (∃ e, decode c = .error e) ↔ (opOf c = 0xB ∨ opOf c = 0xE) ∧ ¬(frameOf c).wf := by
  simp only [← BitVec.toNat_inj]
  unfold decode
  split
  case h_12 hop | h_15 hop => simp [decodeFrameOp_isError_iff, hop]
  case h_16 => simp_all
  all_goals simp [*]

/-! ### The encoder (30 R82) -/

theorem opOf_encode (i : Instr) : opOf (encode i) = i.opcode := by
  cases i with
  | rbPush f => exact Laws.OpcodeNibble.rbPush f
  | busRx f => exact Laws.OpcodeNibble.busRx f
  | _ => exact opOf_word36 _ _

theorem argOf_encode_setFm (f m : U16) : argOf (encode (.setFm f m)) = m ++ f := argOf_word36 _ _

/-- The encoder writes each operand where the decoder reads it. -/
theorem operandRead_encode (i : Instr) : operandRead (encode i) i := by
  cases i with
  | cfgManual b => exact (argOf_word36 _ b).symm
  | cfgAuto v => rw [operandRead, encode, argOf_word36, argFlag_getLsbD_zero]
  | setFm f m =>
    rw [operandRead, argOf_encode_setFm]
    exact ⟨(extract_append_low m f).symm, (high_half_append m f).symm⟩
  | getStatus p => rw [operandRead, encode, argOf_word36, argFlag_getLsbD_zero]
  | rbPush f => exact (frameOf_word108 _ f).symm
  | busRx f => exact (frameOf_word108 _ f).symm
  | start | stop | drain | quit | extReq | ingest | rbPop | rbReset | reserved0 | reservedF => trivial

/-- Settles O1: the encoder writes the code and the operand the decoder reads. -/
theorem encodeThenDecodeGivesTheOperationBack : Obligations.EncodeThenDecodeGivesTheOperationBack :=
  fun i hwf => decode_of_reads hwf (opOf_encode i) (operandRead_encode i)

/-- Settles O2: the word and the encoding of what it decodes to hold the same code and the same operand. -/
theorem decodeReadsEveryOperandBit : Obligations.DecodeReadsEveryOperandBit := by
  intro c i h
  obtain ⟨hwf, hop, hc⟩ := decode_eq_ok_iff.1 h
  have code : opOf (encode i) = opOf c := (opOf_encode i).trans hop.symm
  refine ⟨hwf, hop, ?_, ?_, ?_, ?_, ?_, ?_⟩
  · rintro b rfl
    exact lines36_ext code ((argOf_word36 _ b).trans hc)
  · rintro v rfl
    exact hc.trans (argOf_getLsbD_zero c)
  · rintro f m rfl
    obtain ⟨rfl, rfl⟩ := hc
    exact lines36_ext code ((argOf_encode_setFm _ _).trans (halves_append (argOf c)))
  · rintro p rfl
    exact hc.trans (argOf_getLsbD_zero c)
  · rintro f rfl
    exact lines108_ext code ((frameOf_word108 _ f).trans hc)
  · rintro f rfl
    exact lines108_ext code ((frameOf_word108 _ f).trans hc)

/-- Settles O3: the flag is the whole operand of CFG_AUTO and GET_STATUS, and the other eight have none. -/
theorem ignoredOperandBitsDecodeAlike : Obligations.IgnoredOperandBitsDecodeAlike := by
  intro c
  have flag : c.getLsbD 4 = (argOf c).getLsbD 0 := (argOf_getLsbD_zero c).symm
  have bare {i : Instr} (hwf : i.wf) (hc : operandRead c i) (h : opOf c = i.opcode) := decode_of_reads hwf h hc
  exact ⟨bare (i := .cfgAuto _) trivial flag, bare (i := .getStatus _) trivial flag, bare (i := .start) trivial trivial,
    bare (i := .stop) trivial trivial, bare (i := .drain) trivial trivial, bare (i := .quit) trivial trivial,
    bare (i := .extReq) trivial trivial, bare (i := .ingest) trivial trivial, bare (i := .rbPop) trivial trivial,
    bare (i := .rbReset) trivial trivial⟩

/-- Settles O5: each word is evaluated. -/
theorem wordsWrittenOutDecode : Obligations.WordsWrittenOutDecode := by
  unfold Obligations.WordsWrittenOutDecode
  decide

end Sys2Proof

namespace Sys2Proof.Machine

/-! ### Words that are no operation (30 R89) -/

theorem issue_error {lvl : Level} {c : PortWord} {e : DecodeError} (hl : lvl ≠ .dlg) (hd : decode c = .error e)
    (s : State) : issue lvl c s = .fault .illegalWord := by
  simp only [issue, hl, if_false, hd]

/-- Settles O4: the length is that of the word's Frame, and the issue of a rejected word is a fault. -/
theorem longFrameWordsAreRejected : Obligations.LongFrameWordsAreRejected := by
  refine ⟨fun c => ?_, fun s lvl c r e hs hd hl => (step_word hs).trans (issue_error hl hd _)⟩
  rw [decode_isError_iff, Frame.wf, frameOf_length, Nat.not_le, maxLen]

/-! ### The reserved codes (30 R87) -/

theorem decode_eq_reserved0_iff {c : PortWord} : decode c = .ok .reserved0 ↔ opOf c = 0x0 := by
  simp [decode_eq_ok_iff, operandRead, Instr.opcode]

theorem decode_eq_reservedF_iff {c : PortWord} : decode c = .ok .reservedF ↔ opOf c = 0xF := by
  simp [decode_eq_ok_iff, operandRead, Instr.opcode]

theorem unrecognised_free {s : State} (c : PortWord) (h : mainBusy s = false) : unrecognised c s = menu s := by
  simp [unrecognised, h]

/-- Settles O11: by its code; at the dialog unrecognised input with MAIN free, elsewhere a refusal. -/
theorem reservedCodesMenuOrRefused : Obligations.ReservedCodesMenuOrRefused := by
  refine ⟨fun c => ⟨decode_eq_reserved0_iff, decode_eq_reservedF_iff⟩, fun s => ⟨fun hl hb => ?_, fun hl => ?_⟩⟩
  · have shown (c : PortWord) : unrecognised c s = menu s := unrecognised_free c hb
    exact ⟨(if_pos hl).trans (congrArg _ (shown _)), (if_pos hl).trans (congrArg _ (shown _))⟩
  · exact ⟨if_neg hl, if_neg hl⟩

/-! ### The placed word (log 18) -/

theorem withFetchWord_toNat (s : State) (c : PortWord) : s.withFetchWord 108 c.toNat = withWord c s := by
  rw [State.withFetchWord, Nat.mod_eq_of_lt c.isLt, BitVec.ofNat_toNat, BitVec.setWidth_eq]

theorem withWord_direct {c : PortWord} {i : Instr} (hd : decode c = .ok i) (hl : i.homeLevel ≠ .dlg) (s : State) :
    withWord c s = { freeMain s with sched := .op i.homeLevel c :: s.sched } := by
  simp only [withWord, hd, hl, if_false]

theorem withWord_dialog {c : PortWord} {i : Instr} (hd : decode c = .ok i) (hl : i.homeLevel = .dlg) (s : State) :
    withWord c s = setPos .m2 { freeMain s with userq := [], sched := .op .dlg c :: s.sched } := by
  simp only [withWord, hd, hl, if_true]

/-- Settles O7: the placed word is the next turn, MAIN is free for it, and a dialog command finds MAIN waiting at M2. -/
theorem placedWordRunsNext : Obligations.PlacedWordRunsNext := by
  intro s c i hd
  rw [withFetchWord_toNat]
  refine ⟨fun hl => ?_, fun hl => ?_⟩
  · rw [withWord_direct hd hl, step_word rfl, issue_direct hl hd]
    rfl
  · rw [withWord_dialog hd hl, step_word_dialog_waiting rfl rfl, dialogCommand_ok hd]
    simp only [dialogResumes_eq]
    rfl

end Sys2Proof.Machine
end

section
/-! The parameters, TABLE among them, are read-only (40_bit_timing_table.md R103; log 3): each kind of step leaves `cfg` as it
is, and so does every step. -/

namespace Sys2Proof.Machine

section
variable {s t : State} {u : Turn}

/-! ### The labelled steps, the calls and the other agents -/

theorem LabelRes.cfg {l : Label} (h : LabelRes s l (.next t)) : t.cfg = s.cfg := by
  cases h <;> rfl

theorem CallRes.cfg {who : Caller} {c : Call} (h : CallRes who s c (.next t)) : t.cfg = s.cfg := by
  cases h with
  | begins _ _ _ _ h => exact h.cfg
  | _ => rfl

theorem PushRes.cfg {f : Frame} (h : PushRes f s (.next t)) : t.cfg = s.cfg := by
  cases h <;> rfl

theorem IsrRes.cfg (h : IsrRes s (.next t)) : t.cfg = s.cfg := by
  cases h <;> rfl

@[simp] theorem busArrives_cfg (f : Frame) (s : State) : (busArrives f s).cfg = s.cfg := by
  obtain h | ⟨-, -, h⟩ | ⟨-, -, h⟩ := busArrives_cases f s <;> rw [h]

theorem envTurn_cfg (h : envTurn u s = .next t) : t.cfg = s.cfg := by
  obtain ⟨-, rfl⟩ | ⟨f, -, -, rfl⟩ | ⟨-, rfl⟩ | ⟨c, -, rfl⟩ | rfl := envTurn_cases h
  · exact enterIngest_cfg s
  · exact busArrives_cfg f s
  · exact extRequest_cfg s
  · exact userSends_cfg s c
  · rfl

/-! ### A run through the listed turns, and MAIN's step -/

theorem InsideMoves.cfg (h : InsideMoves s t u) : t.cfg = s.cfg := by
  cases h with
  | ingest _ h => exact h.cfg
  | label _ _ _ h => exact h.cfg
  | idle ht => rw [ht]
  | env _ h => exact envTurn_cfg h

theorem carryOn_cfg {busy : State → Bool} {us : List Turn} (h : carryOn busy us s = .next t) : t.cfg = s.cfg := by
  obtain ⟨-, -, -, ht, -⟩ := carryOn_keeps (P := fun _ v => v.cfg = s.cfg)
    (fun u r v w _ _ hv hw => (turnInside_moves hw).cfg.trans hv) us s t rfl h
  exact ht

theorem MainMoves.cfg (h : MainMoves s t) : t.cfg = s.cfg := by
  cases h with
  | inside _ _ _ _ h ht => exact ht ▸ h.cfg
  | waited _ _ _ _ h => exact h.cfg
  | calls _ _ _ _ _ _ _ h ht => exact ht ▸ h.cfg
  | quits _ h => exact h.cfg
  | moves _ _ _ _ _ ht => rw [ht]

/-! ### Issued operations and turns -/

/-- An operation that is called writes no parameter in its first step, nor in the turns it goes on through. -/
theorem ExecRes.cfg {i : Instr} (h : ExecRes s i (.next t)) : t.cfg = s.cfg := by
  cases h with
  | sends | queues | menu | requests => rfl
  | calls _ _ _ h =>
    obtain ⟨v, hv, ht⟩ := andThen_eq_next.1 h
    exact (carryOn_cfg ht).trans (callStep_next hv).cfg
  | quits _ _ _ h =>
    obtain ⟨v, hv, ht⟩ := andThen_eq_next.1 h
    exact (carryOn_cfg ht).trans (beginQuit_next hv).cfg
  | ingests _ _ h => exact carryOn_cfg (s := enterIngest s) h
  | pushes f _ h =>
    obtain ⟨v, hv, ht⟩ := andThen_eq_next.1 h
    cases ht
    exact (hv ▸ ringPush_res f s : PushRes f s (.next v)).cfg
  | arrives f => exact busArrives_cfg f s

theorem IssueMoves.cfg {lvl : Level} {c : PortWord} (h : IssueMoves s t lvl c) : t.cfg = s.cfg := by
  cases h with
  | sends ht | menu ht => rw [ht]; rfl
  | runs _ _ _ _ _ _ h ht => exact ht ▸ h.cfg

theorem TurnMoves.cfg (h : TurnMoves s t u) : t.cfg = s.cfg := by
  cases h with
  | ingest _ h => exact h.cfg
  | main _ h => exact h.cfg
  | env _ h => exact envTurn_cfg h
  | issued _ _ h => exact h.cfg

/-- Choosing the next turn moves the schedule or the count of free values. -/
theorem nextTurn_cfg (s : State) : (nextTurn s).2.cfg = s.cfg := by
  unfold nextTurn
  split <;> rfl

end

/-- Settles O19: the turn is taken from the list or is a free value, and no turn writes a parameter. -/
theorem tableIsNeverWritten : Obligations.TableIsNeverWritten :=
  fun s _ h => (takeTurn_moves h).cfg.trans (nextTurn_cfg s)

end Sys2Proof.Machine
end

section
/-! The Bus Configurator (41_bus_configurator.md): CFG_MANUAL, SET_FM, GET_STATUS, START and STOP issued where MAIN is
free, and STOP among whatever turns stand between its steps. -/

namespace Sys2Proof.Machine

section
variable {s : State}

/-! ### Calls of one step -/

/-- An operation whose first step is its last completes in the step of its word. -/
theorem callMain_oneStep {t : State} {c : Call} (hb : mainBusy s = false)
    (h : callStep (callerAt s.level) c s = .next t) (hm : t.main = s.main) : callMain c s = .next t := by
  rw [callMain_free c hb, h, andThen_next]
  exact mainGoesOn_done (hm ▸ (mainBusy_eq_false.1 hb).1)

/-- A call refused at its first step. -/
theorem callMain_refused {c : Call} {e : Refusal} (hb : mainBusy s = false)
    (h : callStep (callerAt s.level) c s = .refused e) : callMain c s = .refused e := by
  rw [callMain_free c hb, h, andThen_refused]

/-- An operation that waits leaves status, peripheral and output as they are (log 12). -/
theorem callMain_waits (c : Call) (hb : mainBusy s = true) :
    ∃ t, callMain c s = .next t ∧ t.st = s.st ∧ t.per = s.per ∧ t.out = s.out := by
  refine ⟨_, callMain_busy c hb, ?_⟩
  obtain ⟨-, h⟩ | ⟨-, h⟩ := waits_cases c s <;> rw [h] <;> exact ⟨rfl, rfl, rfl⟩

/-! ### GET_STATUS (41 R116) and SET_FM (41 R113) -/

theorem exec_getStatus_free (hb : mainBusy s = false) (p : Bool) :
    exec (.getStatus p) s = .next (returnStatus (if p then emit (.status s.st) s else s)) :=
  callMain_oneStep (c := .getStatus p) hb rfl (by cases p <;> rfl)

theorem exec_getStatus_keeps (p : Bool) (s : State) :
    ∃ t, exec (.getStatus p) s = .next t ∧ t.st = s.st ∧ t.per = s.per := by
  cases hb : mainBusy s with
  | false => exact ⟨_, exec_getStatus_free hb p, by cases p <;> exact ⟨rfl, rfl⟩⟩
  | true =>
    obtain ⟨t, ht, hst, hper, -⟩ := callMain_waits (.getStatus p) hb
    exact ⟨t, ht, hst, hper⟩

/-- Settles O29: the word's flag is its operand; with MAIN free the one step reads the status, else the call waits. -/
theorem getStatusReadsAndReports : Obligations.GetStatusReadsAndReports :=
  ⟨fun _ hop => decode_of_reads trivial hop rfl,
    fun s => ⟨fun hb => ⟨exec_getStatus_free hb true, exec_getStatus_free hb false⟩, fun p => exec_getStatus_keeps p s⟩⟩

theorem exec_setFm_free (hb : mainBusy s = false) (f m : U16) :
    exec (.setFm f m) s = .next (returnStatus (storeFilter (truncId f) (truncId m) s)) :=
  callMain_oneStep (c := .setFm f m) hb rfl rfl

/-- Settles O28: `truncId` is the mask with 0x7FF; where MAIN is not free the call waits. -/
theorem setFmStoresTheLowElevenBits : Obligations.SetFmStoresTheLowElevenBits := by
  refine fun s f m => ⟨opOf_encode _, argOf_encode_setFm f m, fun hb => exec_setFm_free hb f m, ?_⟩
  cases hb : mainBusy s with
  | false => exact ⟨_, exec_setFm_free hb f m, nofun⟩
  | true =>
    obtain ⟨t, ht, kept⟩ := callMain_waits (.setFm f m) hb
    exact ⟨t, ht, fun _ => kept⟩

/-! ### CFG_MANUAL (41 R109 to R112) -/

/-- The first entry in table order with the operand's bitrate is the one found. -/
theorem findEntry_first {before after : List BitTimingEntry} {e : BitTimingEntry} {b : U32}
    (hn : ∀ x ∈ before, x.bitrate ≠ b) (he : e.bitrate = b) : findEntry (before ++ e :: after) b = some e := by
  refine List.find?_eq_some_iff_append.2 ⟨by simp [he], before, after, rfl, fun x hx => ?_⟩
  simpa using hn x hx

theorem findEntry_eq_none {table : List BitTimingEntry} {b : U32} (hn : ∀ x ∈ table, x.bitrate ≠ b) :
    findEntry table b = none :=
  List.find?_eq_none.2 fun x hx => by simpa using hn x hx

section
variable {b : U32} (hb : mainBusy s = false) (hr : s.per.running = false)
include hb hr

theorem exec_cfgManual_found {e : BitTimingEntry} (he : findEntry s.cfg.table b = some e) :
    exec (.cfgManual b) s = .next (returnStatus (configure e.bitrate (perSetTiming e s))) :=
  callMain_oneStep (c := .cfgManual b) hb (by simp [callStep, stepCfgManual, hr, he]) rfl

theorem exec_cfgManual_missing (he : findEntry s.cfg.table b = none) :
    exec (.cfgManual b) s = .next (returnStatus (unconfigure s)) :=
  callMain_oneStep (c := .cfgManual b) hb (by simp [callStep, stepCfgManual, hr, he]) rfl

end

/-- Settles O25: the entry is the first match of the table. -/
theorem cfgManualMatch : Obligations.CfgManualMatch := by
  rintro s b before after e hb hr ht hn rfl
  exact exec_cfgManual_found hb hr (ht ▸ findEntry_first hn rfl)

/-! ### START (41 R118 to R121) -/

/-- An unconfigured START fails its test t1, before any write. -/
theorem exec_start_unconfigured (hb : mainBusy s = false) (hl : s.level ≠ .dlg) (hr : s.per.running = false)
    (hc : s.st.configured = false) : exec .start s = .next (opReturn (returns (.bool false) s)) := by
  have fails : callStep .direct .start s = .next (opReturn (returns (.bool false) s)) :=
    (if_neg (by simp [hr])).trans ((if_neg (by simp [hc])).trans (if_neg (by simp)))
  rw [exec_start_direct hl, callMain_free _ hb, callerAt_direct hl, fails, andThen_next]
  exact mainGoesOn_done rfl

/-- Settles O30: START returns false from its test. -/
theorem startUnconfiguredReturnsFalse : Obligations.StartUnconfiguredReturnsFalse :=
  fun _ hb hl hr hc => exec_start_unconfigured hb hl hr hc

/-- Settles O26: no entry is found, and the status stored is one START fails on. -/
theorem cfgManualNoMatch : Obligations.CfgManualNoMatch :=
  fun _ _ hb hr hn => ⟨_, exec_cfgManual_missing hb hr (findEntry_eq_none hn), rfl,
    fun hl => ⟨_, exec_start_unconfigured hb hl hr rfl, rfl⟩⟩

/-- `s` inside a START called directly, at label `l`, with the peripheral at `p` and `r` still listed. -/
def insideStart (l : Label) (p : Peripheral) (r : List Turn) (s : State) : State :=
  { s with per := p, main := { s.main with op := some l, caller := .direct }, sched := r }

/-- A configured START passes its test and goes on with t2. -/
theorem exec_start_configured (hb : mainBusy s = false) (hl : s.level ≠ .dlg) (hr : s.per.running = false)
    (hc : s.st.configured = true) : exec .start s = carryOn opInProgress s.sched (insideStart .t2 s.per s.sched s) := by
  have passes : callStep .direct .start s = .next (insideStart .t2 s.per s.sched s) :=
    (if_neg (by simp [hr])).trans (if_pos hc)
  rw [exec_start_direct hl, callMain_free _ hb, callerAt_direct hl, passes]
  rfl

/-- t4 where START was not called by QUIT. -/
theorem labelStep_t4_returns (hq : s.main.caller ≠ .quit) :
    labelStep .t4 s = .next (opReturn (returns (.bool true) (perIrqEnable s))) :=
  if_neg hq

/-- The peripheral as START leaves it: the stored filter programmed, running, the interrupt enabled (41 R118). -/
def armedPeripheral (s : State) : Peripheral :=
  { s.per with filterId := s.st.filterId, maskId := s.st.maskId, running := true, rxie := true }

/-- t2, t3 and t4 in three turns of the processor. -/
theorem carryOn_start (q r : List Turn) (ha : s.ing.active = false) :
    carryOn opInProgress (.cpu :: .cpu :: .cpu :: r) (insideStart .t2 s.per q s) =
      .next (opReturn (returns (.bool true) { s with per := armedPeripheral s, sched := r })) := by
  calc carryOn opInProgress (.cpu :: .cpu :: .cpu :: r) (insideStart .t2 s.per q s)
    _ = carryOn opInProgress (.cpu :: .cpu :: r)
          (insideStart .t3 { s.per with filterId := s.st.filterId, maskId := s.st.maskId } (.cpu :: .cpu :: r) s) :=
      carryOn_op_next _ ha rfl rfl
    _ = carryOn opInProgress (.cpu :: r)
          (insideStart .t4 { armedPeripheral s with rxie := s.per.rxie } (.cpu :: r) s) :=
      carryOn_op_next _ ha rfl rfl
    _ = carryOn opInProgress r (opReturn (returns (.bool true) { s with per := armedPeripheral s, sched := r })) :=
      carryOn_op_next _ ha rfl (labelStep_t4_returns (by simp [insideStart]))
    _ = .next _ := carryOn_done r rfl

/-- Settles O31: t2, t3, t4 are taken one after another in the three turns listed. -/
theorem startConfiguredArmsTheBus : Obligations.StartConfiguredArmsTheBus := by
  refine ⟨fun s r hs hb hl hr hc => ?_, fun s => ⟨rfl, rfl, labelStep_t4_returns⟩⟩
  rw [exec_start_configured hb hl hr hc, hs]
  exact carryOn_start _ r (mainBusy_eq_false.1 hb).2.1

/-! ### What is refused while the peripheral runs (41 R112, R121; 42 R144; 46 R201) -/

/-- Settles O27: each tests `per.running` in its first step; QUIT's first step is START's. -/
theorem refusedWhileThePeripheralRuns : Obligations.RefusedWhileThePeripheralRuns := by
  intro s hb hr
  have t1 (who : Caller) : beginOp who .t1 s = .refused .peripheralRunning := if_pos hr
  refine ⟨fun b => callMain_refused (c := .cfgManual b) hb (if_pos hr),
    fun v => callMain_refused (c := .cfgAuto v) hb (if_pos hr), fun hl => ?_, fun hl => ?_⟩
  · exact (exec_start_direct hl).trans (callMain_refused hb (t1 _))
  · simp [exec, execQuit, hl, hb, beginQuit, t1]

/-! ### STOP (41 R123 to R126), uninterrupted -/

/-- STOP past its first step s1. -/
def stopBegun (s : State) : State := goto .s2 (perIrqDisable (calledBy .direct s))

/-- STOP, issued by MAIN where it is free, disables the interrupt and goes on with s2. -/
theorem exec_stop_free (hb : mainBusy s = false) (hl : s.level = .api ∨ s.level = .prim) :
    exec .stop s = carryOn opInProgress s.sched (stopBegun s) := by
  rw [exec_stop_consumer hl, callMain_free _ hb, callerAt_direct (ne_dlg_of_api_or_prim hl)]
  rfl

/-- `s` after a STOP nothing stood between the steps of, with `r` still listed. -/
def stopped (r : List Turn) (s : State) : State :=
  opReturn (ringReset (perStop (perIrqDisable { s with sched := r })))

theorem exec_stop_uninterrupted {r : List Turn} (hs : s.sched = .cpu :: .cpu :: r) (hb : mainBusy s = false)
    (hl : s.level = .api ∨ s.level = .prim) : exec .stop s = .next (stopped r s) := by
  have idle : s.ing.active = false := (mainBusy_eq_false.1 hb).2.1
  rw [exec_stop_free hb hl, hs]
  calc carryOn opInProgress (.cpu :: .cpu :: r) (stopBegun s)
    _ = carryOn opInProgress (.cpu :: r) _ := carryOn_op_next _ idle rfl rfl
    _ = carryOn opInProgress r _ := carryOn_op_next _ idle rfl rfl
    _ = .next _ := carryOn_done r rfl

/-- Settles O32: the flush is the peripheral's at this stop. -/
theorem stopEffect : Obligations.StopEffect :=
  fun s _ hs hb hl => ⟨stopFlushes s, fun h => by simp [stopFlushes, h], fun h => by simp [stopFlushes, h],
    exec_stop_uninterrupted hs hb hl⟩

theorem mainBusy_stopped (r : List Turn) (hb : mainBusy s = false) : mainBusy (stopped r s) = false := by
  obtain ⟨-, idle, none⟩ := mainBusy_eq_false.1 hb
  exact mainBusy_eq_false.2 ⟨rfl, idle, none⟩

/-- Under a fixed policy every stop treats the queue alike, so a second one finds nothing to change. -/
theorem stopped_stopped (r q : List Turn) (h : s.cfg.onStop ≠ .any) :
    stopped r (stopped q s) = { stopped q s with sched := r } := by
  cases hp : s.cfg.onStop with
  | any => exact absurd hp h
  | retain | flush => simp [stopped, perStop, stopFlushes, hp, setHead, setTail, opReturn, perIrqDisable]

/-- What a STOP does to the hardware queue and its lost flag: it keeps both or flushes both (41 R123). -/
theorem stopped_queue (r : List Turn) (s : State) :
    ((stopped r s).per.rxq = s.per.rxq ∧ (stopped r s).per.lost = s.per.lost) ∨
      ((stopped r s).per.rxq = [] ∧ (stopped r s).per.lost = false) := by
  cases hf : stopFlushes (perIrqDisable { s with sched := r }) with
  | false => exact .inl (by simp [stopped, hf])
  | true => exact .inr (by simp [stopped, hf])

/-- Settles O33: the second STOP starts from the state the first has left. -/
theorem stopKeepsStatusAndIsIdempotent : Obligations.StopKeepsStatusAndIsIdempotent := by
  intro s t r hs hb hl ht
  have twice : s.sched = .cpu :: .cpu :: (.cpu :: .cpu :: r) := hs
  rw [exec_stop_uninterrupted twice hb hl] at ht
  cases ht
  have free := mainBusy_stopped (.cpu :: .cpu :: r) hb
  have second := exec_stop_uninterrupted (s := stopped (.cpu :: .cpu :: r) s) rfl free hl
  exact ⟨rfl, rfl, rfl, rfl, rfl, rfl, rfl, fun p => ⟨_, exec_getStatus_free free p, by cases p <;> rfl⟩,
    _, second, rfl, stopped_queue r _, stopped_stopped r _⟩

/-! ### STOP, whatever turns stand between its steps (41 R124) -/

/-- With the interrupt disabled the turns of the other agents move only the mode, the words of USER and what
BUS writes. -/
theorem envTurn_disarmed {u : Turn} (hu : loopTurn u) (hx : s.per.rxie = false) :
    ∃ mode userq rxq lost, envTurn u s =
      .next { s with mode := mode, userq := userq, per := { s.per with rxq := rxq, lost := lost } } := by
  cases u with
  | cpu => exact ⟨s.mode, s.userq, s.per.rxq, s.per.lost, rfl⟩
  | irq => exact ⟨s.mode, s.userq, s.per.rxq, s.per.lost, if_neg (by simp [ingestEnabled, irqSignal, hx])⟩
  | bus f =>
    have arrives : envTurn (.bus f) s = .next (busArrives f s) := if_pos hu
    rw [arrives]
    obtain h | ⟨-, -, h⟩ | ⟨-, -, h⟩ := busArrives_cases f s <;> rw [h] <;> exact ⟨_, _, _, _, rfl⟩
  | ext => exact ⟨.configuring, s.userq, s.per.rxq, s.per.lost, rfl⟩
  | user c => exact ⟨s.mode, s.userq ++ [c], s.per.rxq, s.per.lost, rfl⟩
  | op => exact hu.elim

/-- What STOP and the turns between its steps leave as it is: status, output, timing and filter (41 R125, R126). -/
def settings (s : State) : BusStatus × List Event × U16 × U8 × U8 × U16 × U16 :=
  (s.st, s.out, s.per.prescaler, s.per.timeSeg1, s.per.timeSeg2, s.per.filterId, s.per.maskId)

/-- `v` is reached by a STOP called directly in `s`, past s1: at s2, at s3 with the peripheral stopped, or returned
with the ring reset too. -/
structure InsideStop (s v : State) : Prop where
  disarmed : v.per.rxie = false
  idle : v.ing.active = false
  kept : settings v = settings s
  main : v.main = { s.main with op := v.main.op, caller := .direct }
  place : v.main.op = some .s2 ∨ (v.main.op = some .s3 ∧ v.per.running = false) ∨
    (v.main.op = none ∧ v.per.running = false ∧ v.rb.head = 0 ∧ v.rb.tail = 0)

/-- How many of STOP's steps are left. -/
def stopStepsLeft (s : State) : Nat :=
  match s.main.op with
  | some .s2 => 2
  | some .s3 => 1
  | _ => 0

theorem insideStop_begun (hb : mainBusy s = false) : InsideStop s (stopBegun s) :=
  ⟨rfl, (mainBusy_eq_false.1 hb).2.1, rfl, rfl, .inl rfl⟩

section
variable {v : State} (h : InsideStop s v)
include h

theorem InsideStop.keptBy_sched (r : List Turn) : InsideStop s { v with sched := r } :=
  ⟨h.disarmed, h.idle, h.kept, h.main, h.place⟩

theorem InsideStop.stepsLeft_pos (ho : opInProgress v = true) : 0 < stopStepsLeft v := by
  obtain h2 | ⟨h3, -⟩ | ⟨hn, -⟩ := h.place
  · simp [stopStepsLeft, h2]
  · simp [stopStepsLeft, h3]
  · simp [opInProgress, hn] at ho

/-- A turn of the processor is the next of STOP's steps: no invocation is in progress. -/
theorem InsideStop.cpu (ho : opInProgress v = true) :
    ∃ t, cpuStep v = .next t ∧ InsideStop s t ∧ stopStepsLeft t + 1 = stopStepsLeft v := by
  obtain h2 | ⟨h3, hr⟩ | ⟨hn, -⟩ := h.place
  · refine ⟨goto .s3 (perStop v), cpuStep_op h.idle h2, ⟨h.disarmed, h.idle, h.kept,
      congrArg (fun m => { m with op := some .s3 }) h.main, .inr (.inl ⟨rfl, rfl⟩)⟩, ?_⟩
    simp [stopStepsLeft, h2]
  · refine ⟨opReturn (ringReset v), cpuStep_op h.idle h3,
      ⟨h.disarmed, h.idle, h.kept,
      congrArg (fun m => { m with op := none, caller := .direct }) h.main, .inr (.inr ⟨rfl, hr, rfl, rfl⟩)⟩, ?_⟩
    simp [stopStepsLeft, h3]
  · simp [opInProgress, hn] at ho

/-- A turn of another agent takes none of STOP's steps. -/
theorem InsideStop.env {u : Turn} (hu : loopTurn u) :
    ∃ t, envTurn u v = .next t ∧ InsideStop s t ∧ stopStepsLeft t = stopStepsLeft v := by
  obtain ⟨mode, userq, rxq, lost, ht⟩ := envTurn_disarmed hu h.disarmed
  exact ⟨_, ht, ⟨h.disarmed, h.idle, h.kept, h.main, h.place⟩, rfl⟩

theorem InsideStop.turn {u : Turn} (ho : opInProgress v = true) (hu : loopTurn u) :
    ∃ t, turnInside u v = .next t ∧ InsideStop s t ∧ stopStepsLeft t + cpuTurns [u] ≤ stopStepsLeft v := by
  have other := h.env hu
  cases u with
  | cpu =>
    obtain ⟨t, ht, hi, hm⟩ := h.cpu ho
    exact ⟨t, ht, hi, hm.le⟩
  | irq | bus | ext | user =>
    obtain ⟨t, ht, hi, hm⟩ := other
    exact ⟨t, ht, hi, hm.le⟩
  | op => exact hu.elim

end

/-- STOP returns within the listed turns once two of them are the processor's. -/
theorem exec_stop_returns {p r : List Turn} (hs : s.sched = p ++ r) (hp : ∀ u ∈ p, loopTurn u) (hc : 2 ≤ cpuTurns p)
    (hb : mainBusy s = false) (hl : s.level = .api ∨ s.level = .prim) :
    ∃ t, exec .stop s = .next t ∧ InsideStop s t ∧ opInProgress t = false := by
  obtain ⟨t, -, ht, hi, ho, -⟩ := carryOn_returns (P := InsideStop s) (m := stopStepsLeft) (w := 0)
    (fun v hv hi => hi.stepsLeft_pos hv)
    (fun u q v hv _ hu hi => by
      obtain ⟨t, ht, hit, hm⟩ := (hi.keptBy_sched q).turn hv hu
      exact ⟨t, ht, hit, hm.trans (Nat.le_add_right _ _)⟩)
    p r (stopBegun s) hp (insideStop_begun hb) (by simpa [stopStepsLeft, stopBegun] using hc)
  exact ⟨t, by rw [exec_stop_free hb hl, hs]; exact ht, hi, ho⟩

/-- Settles O34: at its return STOP has left the block as `InsideStop` says. -/
theorem stopCompletesUnderEverySchedule : Obligations.StopCompletesUnderEverySchedule := by
  refine ⟨fun s p r _ hs hp hc hb hl => ?_, fun s hl => ?_, fun s => ⟨rfl, rfl, rfl⟩⟩
  · obtain ⟨t, ht, hi, ho⟩ := exec_stop_returns hs hp hc hb hl
    have returned : t.main.op = none := by simpa [opInProgress] using ho
    have kept := hi.kept
    simp only [settings, Prod.mk.injEq] at kept
    obtain ⟨hst, hout, regs⟩ := kept
    obtain h2 | ⟨h3, -⟩ | ⟨-, running, head, tail⟩ := hi.place
    · cases returned.symm.trans h2
    · cases returned.symm.trans h3
    · exact ⟨t, ht, hi.disarmed, running, head, tail, hi.idle, returned ▸ hi.main, hst, hout, regs⟩
  · obtain hl | hl | hl := hl <;> simp [exec, execStop, hl, consumerContext]

end

end Sys2Proof.Machine
end

section
/-! The Baud Detector (42_baud_detector.md): the labelled steps of CFG_AUTO, its probes on a silent bus and on a live one,
and its return whatever turns stand between its steps. -/

namespace Sys2Proof.Machine

section
variable {s v : State}

/-! ### The labelled steps (42 R131) -/

theorem tableRead_of_entry {i : Nat} {e : BitTimingEntry} (he : s.cfg.table[i]? = some e) (k : BitTimingEntry → Res) :
    tableRead s i k = k e := by
  simp [tableRead, he]

theorem labelStep_a0_starts (hr : s.per.running = false) : labelStep .a0 s = .next (goto .a1 (setIdx 0 s)) :=
  if_neg (by simp [hr])

theorem labelStep_a1_exhausted (hi : s.cfg.table.length ≤ s.main.adIdx) :
    labelStep .a1 s = .next (opReturn (returnStatus (unconfigure s))) :=
  if_pos hi

theorem labelStep_a1_probes (hi : s.main.adIdx < s.cfg.table.length) : labelStep .a1 s = .next (goto .a2 s) :=
  if_neg (Nat.not_le.2 hi)

theorem labelStep_a2_tunes {e : BitTimingEntry} (he : s.cfg.table[s.main.adIdx]? = some e) :
    labelStep .a2 s = .next (goto .a3 (perSetTiming e s)) :=
  tableRead_of_entry he _

theorem labelStep_a8_found {e : BitTimingEntry} (hact : s.main.adAct = true)
    (he : s.cfg.table[s.main.adIdx]? = some e) :
    labelStep .a8 s = .next (opReturn (returnStatus (configure e.bitrate s))) :=
  (if_pos hact).trans (tableRead_of_entry he _)

theorem labelStep_a8_silent (hact : s.main.adAct = false) :
    labelStep .a8 s = .next (goto .a1 (setIdx (s.main.adIdx + 1) s)) :=
  if_neg (by simp [hact])

/-- Settles O35: each label by its step's own equation; a6's test is that the queue is not empty. -/
theorem cfgAutoSteps : Obligations.CfgAutoSteps := by
  refine fun s => ⟨fun hr => if_pos hr, labelStep_a0_starts, labelStep_a1_exhausted, labelStep_a1_probes,
    fun e he => labelStep_a2_tunes he, rfl, rfl, rfl, fun act hact => ?_, rfl,
    fun e hact he => labelStep_a8_found hact he, labelStep_a8_silent⟩
  obtain rfl : act = !s.per.rxq.isEmpty := Bool.eq_iff_iff.2 (by simpa using hact)
  rfl

/-! ### The call (42 R131, R144 (c)) -/

/-- CFG_AUTO past its first step a0. -/
def autoBegun (s : State) : State := goto .a1 (setIdx 0 (calledBy (callerAt s.level) s))

theorem exec_cfgAuto_free (w : Bool) (hb : mainBusy s = false) (hr : s.per.running = false) :
    exec (.cfgAuto w) s = carryOn opInProgress s.sched (autoBegun s) := by
  have begins : callStep (callerAt s.level) (.cfgAuto w) s = .next (autoBegun s) := labelStep_a0_starts hr
  calc exec (.cfgAuto w) s
    _ = callMain (.cfgAuto w) s := rfl
    _ = mainGoesOn (autoBegun s) := by rw [callMain_free _ hb, begins, andThen_next]

/-- `verbose` is no operand of any step. -/
theorem exec_cfgAuto_verbose (hb : mainBusy s = false) : exec (.cfgAuto true) s = exec (.cfgAuto false) s :=
  (callMain_free (.cfgAuto true) hb).trans (callMain_free (.cfgAuto false) hb).symm

/-! ### CFG_AUTO, whatever turns stand between its steps (42 R136, R140) -/

/-- An operation returns whatever turns stand between its steps, where each turn keeps `P`, each of the processor's
lowers `m` and no other raises it. -/
theorem carryOn_returns_of_turns {P : State → Prop} {m : State → Nat}
    (sched : ∀ v q, P v → P { v with sched := q } ∧ m { v with sched := q } = m v)
    (cpu : ∀ v, opInProgress v = true → P v → ∃ t, cpuStep v = .next t ∧ P t ∧ m t < m v)
    (env : ∀ u v, loopTurn u → P v → ∃ t, envTurn u v = .next t ∧ P t ∧ m t ≤ m v)
    {p : List Turn} (r : List Turn) (hp : ∀ u ∈ p, loopTurn u) (hs : P s) (hm : m s ≤ cpuTurns p) :
    ∃ t, carryOn opInProgress (p ++ r) s = .next t ∧ P t ∧ t.main.op = none := by
  have positive (v : State) (ho : opInProgress v = true) (hv : P v) : 0 < m v := by
    obtain ⟨t, -, -, hlt⟩ := cpu v ho hv
    exact Nat.zero_lt_of_lt hlt
  have goes (u : Turn) (q : List Turn) (v : State) (ho : opInProgress v = true) (hu : loopTurn u) (hv : P v) :
      ∃ t, turnInside u { v with sched := q } = .next t ∧ P t ∧ m t + cpuTurns [u] ≤ m v + 0 * irqTurns [u] := by
    obtain ⟨hq, hmq⟩ := sched v q hv
    have step := cpu { v with sched := q } ho hq
    have other := env u _ hu hq
    cases u with
    | cpu =>
      obtain ⟨t, ht, hpt, hlt⟩ := step
      exact ⟨t, ht, hpt, by simpa [cpuTurns, hmq] using hlt⟩
    | irq | bus | ext | user =>
      obtain ⟨t, ht, hpt, hle⟩ := other
      exact ⟨t, ht, hpt, by simpa [cpuTurns, hmq] using hle⟩
    | op => exact hu.elim
  obtain ⟨t, -, ht, hpt, ho, -⟩ :=
    carryOn_returns positive (fun u q v ho _ => goes u q v ho) p r s hp hs (by simpa using hm)
  exact ⟨t, ht, hpt, by simpa [opInProgress] using ho⟩

/-- The entry at the probe index is in the timing registers, and the filter accepts all (42 R133, R134). -/
def probes (e : BitTimingEntry) (s : State) : Prop :=
  s.cfg.table[s.main.adIdx]? = some e ∧ timingIs e s ∧ s.per.filterId = 0 ∧ s.per.maskId = 0

/-- What CFG_AUTO has done where it is about to take its label `l`. -/
def autoAt (l : Label) (s : State) : Prop :=
  match l with
  | .a1 => s.per.running = false
  | .a2 => s.per.running = false ∧ ∃ e, s.cfg.table[s.main.adIdx]? = some e
  | .a3 => s.per.running = false ∧ ∃ e, s.cfg.table[s.main.adIdx]? = some e ∧ timingIs e s
  | .a4 | .a8 => s.per.running = false ∧ ∃ e, probes e s
  | .a5 | .a6 | .a7 => ∃ e, probes e s
  | _ => False

/-- `t` is as a CFG_AUTO called in `s` returns: the table exhausted, or the entry of the last probe found (42 R140). -/
def autoReturned (s t : State) : Prop :=
  t.per.running = false ∧ t.ret = .status t.st ∧
    ((t.cfg.table.length ≤ t.main.adIdx ∧ t.st = { s.st with configured := false, bitrate := 0 }) ∨
      ∃ e, probes e t ∧ t.st = { s.st with configured := true, bitrate := e.bitrate })

/-- What CFG_AUTO and the turns between its steps leave as it is where the interrupt is disabled. -/
def keptByAuto (s : State) : Config.Params × Ring × OverflowFlags × List Event × MainPos × Bool × Bool :=
  (s.cfg, s.rb, s.ovf, s.out, s.main.pos, s.ing.active, s.per.rxie)

/-- `v` is reached by a CFG_AUTO called in `s`, past a0. -/
structure InsideAuto (s v : State) : Prop where
  kept : keptByAuto v = keptByAuto s
  inside : ∀ l, v.main.op = some l → v.st = s.st ∧ autoAt l v
  returned : v.main.op = none → autoReturned s v

theorem InsideAuto.keeps (h : InsideAuto s v) :
    v.cfg = s.cfg ∧ v.rb = s.rb ∧ v.ovf = s.ovf ∧ v.out = s.out ∧ v.main.pos = s.main.pos ∧
      v.ing.active = s.ing.active ∧ v.per.rxie = s.per.rxie := by
  simpa [keptByAuto] using h.kept

theorem insideAuto_begun (hr : s.per.running = false) : InsideAuto s (autoBegun s) :=
  ⟨rfl, fun _ hl => Option.some.inj hl ▸ ⟨rfl, hr⟩, nofun⟩

/-- MAIN goes on to a label at which what the label needs holds. -/
theorem insideAuto_goto {l : Label} (hk : keptByAuto v = keptByAuto s) (hst : v.st = s.st) (hl : autoAt l v) :
    InsideAuto s (goto l v) :=
  ⟨hk, fun _ hl' => Option.some.inj hl' ▸ ⟨hst, by cases l <;> exact hl⟩, nofun⟩

/-- How many of the eight steps of a probe, a1 to a8, are left. -/
def probeStepsLeft (s : State) : Nat :=
  match s.main.op with
  | some .a1 => 8
  | some .a2 => 7
  | some .a3 => 6
  | some .a4 => 5
  | some .a5 => 4
  | some .a6 => 3
  | some .a7 => 2
  | some .a8 => 1
  | _ => 0

/-- How many steps of CFG_AUTO are left at the most: those of this probe, of every later one, and the last a1. -/
def autoStepsLeft (s : State) : Nat :=
  match s.main.op with
  | none => 0
  | some .a1 => 8 * (s.cfg.table.length - s.main.adIdx) + 1
  | some _ => probeStepsLeft s + 8 * (s.cfg.table.length - (s.main.adIdx + 1)) + 1

/-- The next of CFG_AUTO's steps is taken, and never refused: the peripheral does not run where a0 tests it, and the index
is below T where the table is read. -/
theorem InsideAuto.label {l : Label} (h : InsideAuto s v) (ho : v.main.op = some l) :
    ∃ t, labelStep l v = .next t ∧ InsideAuto s t := by
  obtain ⟨hst, at_l⟩ := h.inside l ho
  have goes {l' : Label} {w : State} (hk : keptByAuto w = keptByAuto v) (hw : w.st = v.st) (hl' : autoAt l' w) :
      ∃ t, Host.Outcome.next (φ := Fault) (ρ := Refusal) (goto l' w) = .next t ∧ InsideAuto s t :=
    ⟨_, rfl, insideAuto_goto (hk.trans h.kept) (hw.trans hst) hl'⟩
  have step := labelStep_res l v
  generalize labelStep l v = r at step
  cases step with
  | a1_exhausted hi =>
    exact ⟨_, rfl, h.kept, nofun, fun _ => ⟨at_l, rfl, .inl ⟨hi, by simp [hst]⟩⟩⟩
  | a1_probes hi => exact goes rfl rfl ⟨at_l, _, List.getElem?_eq_getElem hi⟩
  | a2 e he => exact goes rfl rfl ⟨at_l.1, e, he, rfl, rfl, rfl⟩
  | a2_outside hn =>
    obtain ⟨-, e, he⟩ := at_l
    exact absurd (hn.symm.trans he) nofun
  | a3 =>
    obtain ⟨hr, e, he, ht⟩ := at_l
    exact goes rfl rfl ⟨hr, e, he, ht, rfl, rfl⟩
  | a4 => exact goes rfl rfl at_l.2
  | a5 | a6 => exact goes rfl rfl at_l
  | a7 => exact goes rfl rfl ⟨rfl, at_l⟩
  | a8_found e he =>
    obtain ⟨hr, e', he', ht⟩ := at_l
    obtain rfl := Option.some.inj (he.symm.trans he')
    exact ⟨_, rfl, h.kept, nofun, fun _ => ⟨hr, rfl, .inr ⟨e, ⟨he, ht⟩, by simp [hst]⟩⟩⟩
  | a8_outside hn =>
    obtain ⟨-, e, he, -⟩ := at_l
    exact absurd (hn.symm.trans he) nofun
  | a8_silent => exact goes rfl rfl at_l.1
  | _ => exact at_l.elim

theorem LabelRes.autoStepsLeft_lt {l : Label} {t : State} (hr : LabelRes v l (.next t)) (ho : v.main.op = some l)
    (hl : autoAt l v) : autoStepsLeft t < autoStepsLeft v := by
  cases hr with
  | a1_probes hi => simp only [autoStepsLeft, probeStepsLeft, ho, goto_main, goto_cfg]; omega
  | a1_exhausted | a8_found => simp [autoStepsLeft, ho, opReturn]
  | a2 | a3 | a4 | a5 | a6 | a7 | a8_silent => simp [autoStepsLeft, probeStepsLeft, ho]
  | _ => exact hl.elim

/-- Within the first probe each step is one of the eight. -/
theorem LabelRes.probeStepsLeft_lt {l : Label} {t : State} (hr : LabelRes v l (.next t)) (ho : v.main.op = some l)
    (hl : autoAt l v) (hact : l = .a8 → v.main.adAct = true) : probeStepsLeft t < probeStepsLeft v := by
  cases hr with
  | a8_silent hs => simp [hs] at hact
  | a1_exhausted | a8_found => simp [probeStepsLeft, ho, opReturn]
  | a1_probes | a2 | a3 | a4 | a5 | a6 | a7 => simp [probeStepsLeft, ho]
  | _ => exact hl.elim

/-- MAIN takes the processor's turn: no invocation is in progress. -/
theorem InsideAuto.cpu (ha : s.ing.active = false) (h : InsideAuto s v) (ho : opInProgress v = true) :
    ∃ t l, cpuStep v = .next t ∧ InsideAuto s t ∧ v.main.op = some l ∧ autoAt l v ∧ LabelRes v l (.next t) := by
  obtain ⟨l, hl⟩ := Option.isSome_iff_exists.1 ho
  obtain ⟨t, ht, hi⟩ := h.label hl
  obtain ⟨-, -, -, -, -, active, -⟩ := h.keeps
  exact ⟨t, l, (cpuStep_op (active.trans ha) hl).trans ht, hi, hl, (h.inside l hl).2, ht ▸ labelStep_res l v⟩

/-- A turn of another agent takes none of CFG_AUTO's steps. -/
theorem InsideAuto.env (hx : s.per.rxie = false) (h : InsideAuto s v) {u : Turn} (hu : loopTurn u) :
    ∃ t, envTurn u v = .next t ∧ InsideAuto s t ∧ t.main = v.main ∧ t.cfg = v.cfg := by
  obtain ⟨-, -, -, -, -, -, rxie⟩ := h.keeps
  obtain ⟨mode, userq, rxq, lost, ht⟩ := envTurn_disarmed hu (rxie.trans hx)
  refine ⟨_, ht, ⟨h.kept, fun l hl => ?_, h.returned⟩, rfl, rfl⟩
  obtain ⟨hst, at_l⟩ := h.inside l hl
  exact ⟨hst, by cases l <;> exact at_l⟩

theorem InsideAuto.keptBy_sched (h : InsideAuto s v) (q : List Turn) : InsideAuto s { v with sched := q } :=
  ⟨h.kept, fun l hl => ⟨(h.inside l hl).1, by cases l <;> exact (h.inside _ hl).2⟩, h.returned⟩

theorem autoStepsLeft_congr {t : State} (hm : t.main = v.main) (hc : t.cfg = v.cfg) :
    autoStepsLeft t = autoStepsLeft v := by
  simp only [autoStepsLeft, probeStepsLeft, hm, hc]

/-- CFG_AUTO returns within the listed turns once 8 T + 1 of them are the processor's. -/
theorem exec_cfgAuto_returns {w : Bool} {p r : List Turn} (hs : s.sched = p ++ r) (hp : ∀ u ∈ p, loopTurn u)
    (hc : 8 * s.cfg.table.length + 1 ≤ cpuTurns p) (hb : mainBusy s = false) (hr : s.per.running = false)
    (hx : s.per.rxie = false) :
    ∃ t, exec (.cfgAuto w) s = .next t ∧ InsideAuto s t ∧ t.main.op = none := by
  obtain ⟨-, idle, -⟩ := mainBusy_eq_false.1 hb
  rw [exec_cfgAuto_free w hb hr, hs]
  refine carryOn_returns_of_turns (P := InsideAuto s) (m := autoStepsLeft)
    (fun v q hv => ⟨hv.keptBy_sched q, rfl⟩) (fun v ho hv => ?_) (fun u v hu hv => ?_) r hp (insideAuto_begun hr) hc
  · obtain ⟨t, l, ht, hi, hl, at_l, step⟩ := hv.cpu idle ho
    exact ⟨t, ht, hi, step.autoStepsLeft_lt hl at_l⟩
  · obtain ⟨t, ht, hi, hm, hcfg⟩ := hv.env hx hu
    exact ⟨t, ht, hi, (autoStepsLeft_congr hm hcfg).le⟩

/-- Settles O39: at its return CFG_AUTO has left the block as `InsideAuto` says; a stopped peripheral's interrupt is
disabled (`INV_M2`), so no invocation runs. -/
theorem cfgAutoCompletesUnderEverySchedule : Obligations.CfgAutoCompletesUnderEverySchedule := by
  refine ⟨fun s w p r hi hs hp hc hb hr => ?_, fun s hb => exec_cfgAuto_verbose hb⟩
  obtain ⟨-, idle, -⟩ := mainBusy_eq_false.1 hb
  obtain ⟨t, ht, inside, ho⟩ := exec_cfgAuto_returns (w := w) hs hp hc hb hr (hi.disarmed hr)
  obtain ⟨running, ret, result⟩ := inside.returned ho
  obtain ⟨cfg, rb, ovf, out, pos, active, rxie⟩ := inside.keeps
  refine ⟨t, ht, ?_, ret, running, rxie.trans (hi.disarmed hr), active.trans idle, rb, ovf, out, ho, pos⟩
  obtain ⟨-, hst⟩ | ⟨e, ⟨he, timing, filter⟩, hst⟩ := result
  · exact .inl hst
  · exact .inr ⟨e, cfg ▸ List.mem_of_getElem? he, hst, timing, filter⟩

/-! ### A frame left in the hardware queue (42 R144 (d)) -/

/-- The first probe is in progress, and will see or has seen a frame. -/
def fooled (s : State) : Prop :=
  s.main.adIdx = 0 ∧ match s.main.op with
    | none => True
    | some .a7 | some .a8 => s.main.adAct = true
    | some _ => s.per.rxq ≠ []

/-- At a8 of the first probe the frame has been seen. -/
theorem fooled_a8 (hf : fooled v) (ho : v.main.op = some .a8) : v.main.adAct = true := by
  obtain ⟨-, hq⟩ := hf
  simpa only [ho] using hq

theorem LabelRes.keeps_fooled {l : Label} {t : State} (hr : LabelRes v l (.next t)) (ho : v.main.op = some l)
    (hl : autoAt l v) (hf : fooled v) : fooled t := by
  obtain ⟨hi, hq⟩ := hf
  simp only [ho] at hq
  cases hr with
  | a1_exhausted | a8_found => exact ⟨hi, trivial⟩
  | a1_probes | a2 | a3 | a4 | a5 | a7 => exact ⟨hi, hq⟩
  | a6 => exact ⟨hi, by simpa using hq⟩
  | a8_silent hs => exact absurd (hs.symm.trans hq) nofun
  | _ => exact hl.elim

/-- No other agent takes a frame from the hardware queue. -/
theorem envTurn_rxq_ne_nil {u : Turn} {t : State} (h : envTurn u v = .next t) (hq : v.per.rxq ≠ []) :
    t.per.rxq ≠ [] := by
  obtain ⟨-, rfl⟩ | ⟨f, -, -, rfl⟩ | ⟨-, rfl⟩ | ⟨c, -, rfl⟩ | rfl := envTurn_cases h
  · exact hq
  · obtain ha | ⟨-, -, ha⟩ | ⟨-, -, ha⟩ := busArrives_cases f v <;> rw [ha]
    · exact hq
    · simp
    · exact hq
  · exact hq
  · exact hq
  · exact hq

theorem envTurn_keeps_fooled {u : Turn} {t : State} (h : envTurn u v = .next t) (hm : t.main = v.main)
    (hf : fooled v) : fooled t := by
  obtain ⟨hi, hq⟩ := hf
  refine ⟨hm ▸ hi, ?_⟩
  rw [hm]
  split at hq
  · trivial
  · exact hq
  · exact hq
  · exact envTurn_rxq_ne_nil h hq

/-- CFG_AUTO returns from its first probe within the listed turns once eight of them are the processor's. -/
theorem exec_cfgAuto_fooled {w : Bool} {p r : List Turn} (hs : s.sched = p ++ r) (hp : ∀ u ∈ p, loopTurn u)
    (hc : 8 ≤ cpuTurns p) (hb : mainBusy s = false) (hr : s.per.running = false) (hx : s.per.rxie = false)
    (hq : s.per.rxq ≠ []) :
    ∃ t, exec (.cfgAuto w) s = .next t ∧ InsideAuto s t ∧ t.main.op = none ∧ t.main.adIdx = 0 := by
  obtain ⟨-, idle, -⟩ := mainBusy_eq_false.1 hb
  rw [exec_cfgAuto_free w hb hr, hs]
  have cpu (v : State) (ho : opInProgress v = true) (hv : InsideAuto s v ∧ fooled v) :
      ∃ t, cpuStep v = .next t ∧ (InsideAuto s t ∧ fooled t) ∧ probeStepsLeft t < probeStepsLeft v := by
    obtain ⟨t, l, ht, hi, hl, at_l, step⟩ := hv.1.cpu idle ho
    exact ⟨t, ht, ⟨hi, step.keeps_fooled hl at_l hv.2⟩,
      step.probeStepsLeft_lt hl at_l fun h8 => fooled_a8 hv.2 (h8 ▸ hl)⟩
  have env (u : Turn) (v : State) (hu : loopTurn u) (hv : InsideAuto s v ∧ fooled v) :
      ∃ t, envTurn u v = .next t ∧ (InsideAuto s t ∧ fooled t) ∧ probeStepsLeft t ≤ probeStepsLeft v := by
    obtain ⟨t, ht, hi, hm, -⟩ := hv.1.env hx hu
    exact ⟨t, ht, ⟨hi, envTurn_keeps_fooled ht hm hv.2⟩, by simp only [probeStepsLeft, hm, le_rfl]⟩
  obtain ⟨t, ht, ⟨hi, hf⟩, ho⟩ := carryOn_returns_of_turns (fun v q hv => ⟨⟨hv.1.keptBy_sched q, hv.2⟩, rfl⟩) cpu env
    r hp ⟨insideAuto_begun hr, rfl, hq⟩ hc
  exact ⟨t, ht, hi, ho, hf.1⟩

/-- Settles O38: the first probe is the last, so it has found its entry. -/
theorem cfgAutoIsFooledByAStaleFrame : Obligations.CfgAutoIsFooledByAStaleFrame := by
  intro s w e after p r hs hp hc hb hr hx hq htable
  obtain ⟨t, ht, inside, ho, first⟩ := exec_cfgAuto_fooled (w := w) hs hp hc hb hr hx hq
  obtain ⟨running, ret, result⟩ := inside.returned ho
  obtain ⟨cfg, rb, ovf, out, -⟩ := inside.keeps
  rw [first, cfg, htable] at result
  obtain ⟨exhausted, -⟩ | ⟨e', ⟨he, timing, filter, mask⟩, hst⟩ := result
  · simp at exhausted
  · rw [first, cfg, htable] at he
    obtain rfl : e = e' := Option.some.inj he
    exact ⟨t, ht, ho, hst, ret, timing, filter, mask, running, rb, ovf, out⟩

/-! ### Uninterrupted probes (42 R132 to R140) -/

/-- `v` with the probe of `e` at its dwell and `r` still listed (42 R133 to R135). -/
def dwelling (e : BitTimingEntry) (r : List Turn) (v : State) : State :=
  goto .a5 (perStart (perSetFilter 0 0 (perSetTiming e { v with sched := r })))

/-- `v` with the probe's test for activity made and the peripheral stopped, `r` still listed (42 R138, R139). -/
def tested (r : List Turn) (v : State) : State :=
  goto .a8 (perStop { v with main := { v.main with adAct := !v.per.rxq.isEmpty }, sched := r })

/-- a1 to a4 in four turns of the processor. -/
theorem carryOn_programs {e : BitTimingEntry} (r : List Turn) (ha : v.ing.active = false) (ho : v.main.op = some .a1)
    (he : v.cfg.table[v.main.adIdx]? = some e) :
    carryOn opInProgress (List.replicate 4 Turn.cpu ++ r) v = carryOn opInProgress r (dwelling e r v) := by
  have below : v.main.adIdx < v.cfg.table.length := (List.getElem?_eq_some_iff.1 he).1
  calc carryOn opInProgress (.cpu :: .cpu :: .cpu :: .cpu :: r) v
    _ = carryOn opInProgress (.cpu :: .cpu :: .cpu :: r) (goto .a2 { v with sched := .cpu :: .cpu :: .cpu :: r }) :=
      carryOn_op_next _ ha ho (labelStep_a1_probes below)
    _ = carryOn opInProgress (.cpu :: .cpu :: r) (goto .a3 (perSetTiming e { v with sched := .cpu :: .cpu :: r })) :=
      carryOn_op_next _ ha rfl (labelStep_a2_tunes he)
    _ = carryOn opInProgress (.cpu :: r)
          (goto .a4 (perSetFilter 0 0 (perSetTiming e { v with sched := .cpu :: r }))) :=
      carryOn_op_next _ ha rfl rfl
    _ = carryOn opInProgress r (dwelling e r v) := carryOn_op_next _ ha rfl rfl

/-- a5 to a7 in three turns of the processor. -/
theorem carryOn_tests (r : List Turn) (ha : v.ing.active = false) (ho : v.main.op = some .a5) :
    carryOn opInProgress (List.replicate 3 Turn.cpu ++ r) v = carryOn opInProgress r (tested r v) := by
  calc carryOn opInProgress (.cpu :: .cpu :: .cpu :: r) v
    _ = carryOn opInProgress (.cpu :: .cpu :: r) _ := carryOn_op_next _ ha ho rfl
    _ = carryOn opInProgress (.cpu :: r) _ := carryOn_op_next _ ha rfl rfl
    _ = carryOn opInProgress r (tested r v) := carryOn_op_next _ ha rfl rfl

/-- `v` after the probe of `e` on a silent bus, `r` still listed. -/
def probedInSilence (e : BitTimingEntry) (r : List Turn) (v : State) : State :=
  goto .a1 (setIdx (v.main.adIdx + 1) (tested r (dwelling e r v)))

theorem carryOn_silentProbe {e : BitTimingEntry} (r : List Turn) (ha : v.ing.active = false)
    (ho : v.main.op = some .a1) (he : v.cfg.table[v.main.adIdx]? = some e) (hq : v.per.rxq = []) :
    carryOn opInProgress (List.replicate 8 Turn.cpu ++ r) v = carryOn opInProgress r (probedInSilence e r v) := by
  have silent (r' : List Turn) : (tested r' (dwelling e r v)).main.adAct = false := by simp [tested, dwelling, hq]
  calc carryOn opInProgress (List.replicate 4 Turn.cpu ++ (List.replicate 3 Turn.cpu ++ .cpu :: r)) v
    _ = carryOn opInProgress (List.replicate 3 Turn.cpu ++ .cpu :: r) (dwelling e _ v) := carryOn_programs _ ha ho he
    _ = carryOn opInProgress (.cpu :: r) (tested _ (dwelling e _ v)) := carryOn_tests _ ha rfl
    _ = carryOn opInProgress r (probedInSilence e r v) := carryOn_op_next _ ha rfl (labelStep_a8_silent (silent r))

/-- The parameters and the draws alone decide what a stop does to the queue and its lost flag (41 R123). -/
theorem perStop_lost_congr {t : State} (hc : t.cfg = s.cfg) (hd : t.drawn = s.drawn) (hl : t.per.lost = s.per.lost) :
    (perStop t).per.lost = (perStop s).per.lost := by
  have flushes : stopFlushes t = stopFlushes s := by simp [stopFlushes, hc, hd]
  simp only [perStop_per, flushes, hl]

theorem probedInSilence_lost (e : BitTimingEntry) (r : List Turn) (v : State) :
    (probedInSilence e r v).per.lost = (perStop v).per.lost := by
  simp only [probedInSilence, tested, goto_per, setIdx_per]
  exact perStop_lost_congr rfl rfl rfl

theorem probedInSilence_drawn (e : BitTimingEntry) (r : List Turn) (v : State) :
    (probedInSilence e r v).drawn = (perStop v).drawn := by
  simp [probedInSilence, tested, dwelling]

/-- What the peripheral's stops leave of its lost flag (41 R123). -/
def lostAfterStops (policy : Config.OnStop) (before after : Bool) : Prop :=
  (policy = .retain → after = before) ∧ (policy = .flush → after = false) ∧ (after = true → before = true)

/-- The peripheral `p` after probes of `es` on a silent bus: the last entry's timing is in its registers. -/
def tunedToLast (es : List BitTimingEntry) (lost : Bool) (p : Peripheral) : Peripheral :=
  match es.getLast? with
  | none => p
  | some e =>
    { p with
      prescaler := e.prescaler, timeSeg1 := e.timeSeg1, timeSeg2 := e.timeSeg2
      filterId := 0, maskId := 0, running := false, lost := lost }

@[simp] theorem tunedToLast_rxq (es : List BitTimingEntry) (lost : Bool) (p : Peripheral) :
    (tunedToLast es lost p).rxq = p.rxq := by
  unfold tunedToLast; split <;> rfl

@[simp] theorem tunedToLast_rxie (es : List BitTimingEntry) (lost : Bool) (p : Peripheral) :
    (tunedToLast es lost p).rxie = p.rxie := by
  unfold tunedToLast; split <;> rfl

theorem tunedToLast_lost (es : List BitTimingEntry) (lost : Bool) (p : Peripheral) :
    (tunedToLast es lost p).lost = p.lost ∨ (tunedToLast es lost p).lost = lost := by
  unfold tunedToLast; split
  · exact .inl rfl
  · exact .inr rfl

theorem lostAfterStops_perStop {before : Bool}
    (h : v.per.lost = before ∨ lostAfterStops v.cfg.onStop before v.per.lost) :
    lostAfterStops v.cfg.onStop before (perStop v).per.lost := by
  cases hf : stopFlushes v with
  | true =>
    refine ⟨fun hp => ?_, fun _ => by simp [hf], by simp [hf]⟩
    simp [stopFlushes, hp] at hf
  | false =>
    have keeps : (perStop v).per.lost = v.per.lost := by simp [hf]
    rw [keeps]
    obtain rfl | h := h
    · refine ⟨fun _ => rfl, fun hp => ?_, id⟩
      simp [stopFlushes, hp] at hf
    · exact h

theorem perStop_drawn_fixed (hp : v.cfg.onStop ≠ .any) : (perStop v).drawn = v.drawn :=
  if_neg hp

/-- Every element of the state but the peripheral, MAIN's control state, the stops' draws and the listed turns. -/
def besidesProbes (s : State) : Config.Params × BusStatus × Ring × OverflowFlags × Mode × IngestCtl × List Event ×
    Result × Level × List PortWord × List Call :=
  (s.cfg, s.st, s.rb, s.ovf, s.mode, s.ing, s.out, s.ret, s.level, s.userq, s.calls)

theorem eq_of_besidesProbes (h : besidesProbes v = besidesProbes s) :
    v = { s with per := v.per, main := v.main, sched := v.sched, drawn := v.drawn } := by
  cases v
  simpa [besidesProbes] using h

/-- `v` is reached, at a1, by a CFG_AUTO called in `s` once it has probed `es` on a silent bus with no other turn
between its steps: only the peripheral, the probe's locals and the stops' draws have moved. -/
structure SilentProbes (es : List BitTimingEntry) (s v : State) : Prop where
  per : ∃ lost, lostAfterStops s.cfg.onStop s.per.lost lost ∧ v.per = tunedToLast es lost s.per
  drawn : s.cfg.onStop ≠ .any → v.drawn = s.drawn
  main : v.main = { s.main with
    op := some .a1, caller := v.main.caller, adIdx := es.length, adAct := if es = [] then s.main.adAct else false }
  rest : besidesProbes v = besidesProbes s

theorem silentProbes_begun (s : State) : SilentProbes [] s (autoBegun s) where
  per := ⟨if s.cfg.onStop = .flush then false else s.per.lost,
    ⟨fun hp => by simp [hp], fun hp => if_pos hp, fun hl =>
      (by simpa using hl : ¬s.cfg.onStop = .flush ∧ s.per.lost = true).2⟩, rfl⟩
  drawn _ := rfl
  main := rfl
  rest := rfl

section
variable {es : List BitTimingEntry} (h : SilentProbes es s v)
include h

theorem SilentProbes.keeps : v.cfg = s.cfg ∧ v.ing = s.ing ∧ v.main.op = some .a1 ∧ v.main.adIdx = es.length :=
  have rest := eq_of_besidesProbes h.rest
  ⟨by rw [rest], by rw [rest], by rw [h.main], by rw [h.main]⟩

theorem SilentProbes.rxq_eq : v.per.rxq = s.per.rxq := by
  obtain ⟨lost, -, hper⟩ := h.per
  rw [hper, tunedToLast_rxq]

theorem SilentProbes.rxie_eq : v.per.rxie = s.per.rxie := by
  obtain ⟨lost, -, hper⟩ := h.per
  rw [hper, tunedToLast_rxie]

/-- One more silent probe. -/
theorem SilentProbes.probe (hq : s.per.rxq = []) (e : BitTimingEntry) (r : List Turn) :
    SilentProbes (es ++ [e]) s (probedInSilence e r v) where
  per := by
    obtain ⟨lost, hlost, hper⟩ := h.per
    obtain ⟨cfg, -⟩ := h.keeps
    have before : v.per.lost = s.per.lost ∨ v.per.lost = lost := hper ▸ tunedToLast_lost es lost s.per
    refine ⟨(probedInSilence e r v).per.lost, ?_, ?_⟩
    · rw [probedInSilence_lost, ← cfg]
      exact lostAfterStops_perStop (before.imp_right fun hl => by rw [hl, cfg]; exact hlost)
    · have rxq := h.rxq_eq.trans hq
      have rxie := h.rxie_eq
      simp [probedInSilence, tested, dwelling, tunedToLast, hq, rxq, rxie]
  drawn hp := by
    obtain ⟨cfg, -⟩ := h.keeps
    rw [probedInSilence_drawn, perStop_drawn_fixed (cfg.symm ▸ hp), h.drawn hp]
  main := by
    obtain ⟨-, -, -, idx⟩ := h.keeps
    have rxq := h.rxq_eq.trans hq
    have main := congrArg (fun m => { m with op := some .a1, adIdx := es.length + 1, adAct := false }) h.main
    simpa [probedInSilence, tested, dwelling, rxq, idx] using main
  rest := Eq.trans (by simp [besidesProbes, probedInSilence, tested, dwelling]) h.rest

end

/-- With BUS silent in the probes of `es`, eight turns of the processor each lead to the test a1 after them. -/
theorem SilentProbes.run (hq : s.per.rxq = []) (ha : s.ing.active = false) (r : List Turn) :
    ∀ (es done after : List BitTimingEntry) (v : State), SilentProbes done s v → s.cfg.table = done ++ es ++ after →
      ∃ t, carryOn opInProgress (List.replicate (8 * es.length) Turn.cpu ++ r) v = carryOn opInProgress r t ∧
        SilentProbes (done ++ es) s t := by
  intro es
  induction es with
  | nil => exact fun done after v h _ => ⟨v, rfl, by simpa using h⟩
  | cons e es ih =>
    intro done after v h ht
    obtain ⟨cfg, ing, ho, idx⟩ := h.keeps
    have entry : v.cfg.table[v.main.adIdx]? = some e := by simp [cfg, idx, ht]
    obtain ⟨t, run, probed⟩ := ih (done ++ [e]) after (probedInSilence e _ v)
      (h.probe hq e (List.replicate (8 * es.length) Turn.cpu ++ r)) (by simpa using ht)
    refine ⟨t, ?_, by simpa using probed⟩
    calc carryOn opInProgress (List.replicate (8 * (e :: es).length) Turn.cpu ++ r) v
      _ = carryOn opInProgress (List.replicate 8 Turn.cpu ++ (List.replicate (8 * es.length) Turn.cpu ++ r)) v := by
        rw [← List.append_assoc, List.replicate_append_replicate, List.length_cons, Nat.mul_succ, Nat.add_comm]
      _ = carryOn opInProgress (List.replicate (8 * es.length) Turn.cpu ++ r) _ :=
        carryOn_silentProbe _ (ing ▸ ha) ho entry (h.rxq_eq.trans hq)
      _ = carryOn opInProgress r t := run

/-- Settles O36: every entry is probed in silence, and the last a1 finds the table at its end. -/
theorem cfgAutoExhaustsTheTable : Obligations.CfgAutoExhaustsTheTable := by
  intro s w r hs hb hr hq
  obtain ⟨-, idle, -⟩ := mainBusy_eq_false.1 hb
  obtain ⟨t, run, probed⟩ := SilentProbes.run hq idle (.cpu :: r) s.cfg.table [] [] _ (silentProbes_begun s) (by simp)
  obtain ⟨lost, ⟨retained, flushed, earlier⟩, per⟩ := probed.per
  obtain ⟨cfg, ing, ho, idx⟩ := probed.keeps
  have exhausted : t.cfg.table.length ≤ t.main.adIdx := by simp [cfg, idx]
  refine ⟨lost, t.drawn, ?_, retained, flushed, earlier, probed.drawn⟩
  calc exec (.cfgAuto w) s
    _ = carryOn opInProgress (List.replicate (8 * s.cfg.table.length) Turn.cpu ++ .cpu :: r) (autoBegun s) := by
      rw [exec_cfgAuto_free w hb hr, hs, List.replicate_succ', List.append_assoc]; rfl
    _ = carryOn opInProgress (.cpu :: r) t := run
    _ = carryOn opInProgress r (opReturn (returnStatus (unconfigure { t with sched := r }))) :=
      carryOn_op_next r (ing ▸ idle) ho (labelStep_a1_exhausted exhausted)
    _ = .next (opReturn (returnStatus (unconfigure { t with sched := r }))) := carryOn_done r rfl
    _ = .next _ := by
      rw [eq_of_besidesProbes probed.rest, per, probed.main]
      rfl

/-! ### A frame in the dwell of a live entry (42 R138, R142) -/

/-- The filter 0, 0 accepts every frame (00 R7). -/
theorem accept_zero (p : Config.Params) (f : Frame) : accept p 0 0 f = true := by simp [accept]

/-- A frame the peripheral can receive, and has room for, is queued (44 R167). -/
theorem busArrives_queues {f : Frame} (hr : s.per.running = true)
    (hrate : rateOk s.cfg s.per.prescaler s.per.timeSeg1 s.per.timeSeg2 = true)
    (hacc : accept s.cfg s.per.filterId s.per.maskId f = true) (hroom : s.per.rxq.length < s.cfg.hwqDepth) :
    busArrives f s = { s with per := { s.per with rxq := s.per.rxq ++ [f] } } := by
  simp [busArrives, hr, hrate, hacc, hroom]

/-- A frame on the bus between two steps of an operation. -/
theorem carryOn_bus_next {f : Frame} (r : List Turn) (ho : opInProgress s = true) (hf : f.wf) :
    carryOn opInProgress (.bus f :: r) s = carryOn opInProgress r (busArrives f { s with sched := r }) := by
  have arrives : turnInside (.bus f) { s with sched := r } = .next (busArrives f { s with sched := r }) := if_pos hf
  rw [carryOn_cons r ho rfl, arrives, andThen_next]

/-- `v` as a probe that has seen a frame returns entry `e`, `r` still listed (42 R140). -/
def found (e : BitTimingEntry) (r : List Turn) (v : State) : State :=
  opReturn (returnStatus (configure e.bitrate (tested r v)))

/-- a5 to a8 in four turns of the processor, where a frame waits in the queue (42 R138 to R140). -/
theorem carryOn_finds {e : BitTimingEntry} (r : List Turn) (ha : v.ing.active = false) (ho : v.main.op = some .a5)
    (he : v.cfg.table[v.main.adIdx]? = some e) (hq : v.per.rxq ≠ []) :
    carryOn opInProgress (List.replicate 4 Turn.cpu ++ r) v = .next (found e r v) := by
  have seen (r' : List Turn) : (tested r' v).main.adAct = true := by simpa [tested] using hq
  calc carryOn opInProgress (List.replicate 3 Turn.cpu ++ .cpu :: r) v
    _ = carryOn opInProgress (.cpu :: r) (tested (.cpu :: r) v) := carryOn_tests _ ha ho
    _ = carryOn opInProgress r (found e r v) := carryOn_op_next r ha rfl (labelStep_a8_found (seen r) he)
    _ = .next _ := carryOn_done r rfl

/-- `v` with a frame received in the dwell of `e`, `r` still listed. -/
def received (e : BitTimingEntry) (f : Frame) (r : List Turn) (v : State) : State :=
  let w := dwelling e r v
  { w with per := { w.per with rxq := [f] } }

/-- a1 to a4, then a frame on a bus that has the entry's rate (42 R133 to R137). -/
theorem carryOn_receives {e : BitTimingEntry} {f : Frame} (r : List Turn) (ha : v.ing.active = false)
    (ho : v.main.op = some .a1) (he : v.cfg.table[v.main.adIdx]? = some e) (hq : v.per.rxq = [])
    (hd : 0 < v.cfg.hwqDepth) (hf : f.wf) (hrate : rateOk v.cfg e.prescaler e.timeSeg1 e.timeSeg2 = true) :
    carryOn opInProgress (List.replicate 4 Turn.cpu ++ .bus f :: r) v = carryOn opInProgress r (received e f r v) := by
  have queued : busArrives f (dwelling e r v) = received e f r v := by
    rw [busArrives_queues rfl hrate (accept_zero _ f) (by simpa [dwelling, hq] using hd)]
    simp [received, dwelling, hq]
  calc carryOn opInProgress (List.replicate 4 Turn.cpu ++ .bus f :: r) v
    _ = carryOn opInProgress (.bus f :: r) (dwelling e (.bus f :: r) v) := carryOn_programs _ ha ho he
    _ = carryOn opInProgress r (busArrives f { dwelling e (.bus f :: r) v with sched := r }) :=
      carryOn_bus_next r rfl hf
    _ = carryOn opInProgress r (busArrives f (dwelling e r v)) := rfl
    _ = carryOn opInProgress r (received e f r v) := by rw [queued]

/-- Settles O37: the probes before `e` are silent, and that of `e` is live. -/
theorem cfgAutoFindsTheLiveEntry : Obligations.CfgAutoFindsTheLiveEntry := by
  intro s w before after e f r hwf hb hr hq hf htable hrate hs
  obtain ⟨-, idle, -⟩ := mainBusy_eq_false.1 hb
  obtain ⟨v, run, probed⟩ := SilentProbes.run hq idle
    (List.replicate 4 Turn.cpu ++ .bus f :: (List.replicate 4 Turn.cpu ++ r)) before [] (e :: after) _
    (silentProbes_begun s) htable
  obtain ⟨cfg, ing, ho, idx⟩ := probed.keeps
  have entry : v.cfg.table[v.main.adIdx]? = some e := by simp [cfg, idx, htable]
  have receives := carryOn_receives (List.replicate 4 Turn.cpu ++ r) (ing ▸ idle) ho entry (probed.rxq_eq.trans hq)
    (cfg ▸ hwf.2) hf (cfg ▸ hrate)
  have finds := carryOn_finds (v := received e f (List.replicate 4 Turn.cpu ++ r) v) r (ing ▸ idle) rfl entry
    (by simp [received])
  have rest := probed.rest
  simp only [besidesProbes, Prod.mk.injEq] at rest
  obtain ⟨-, st, rb, ovf, mode, -, out, -⟩ := rest
  have pos : v.main.pos = s.main.pos := by rw [probed.main]
  have runs : exec (.cfgAuto w) s = .next (found e r (received e f (List.replicate 4 Turn.cpu ++ r) v)) := by
    rw [exec_cfgAuto_free w hb hr, hs, ← List.replicate_append_replicate, List.append_assoc, run, receives, finds]
  refine ⟨_, runs, ?_⟩
  simp [found, tested, received, dwelling, timingIs, st, rb, ovf, out, mode, pos, ing, cfg, probed.rxie_eq]

end

end Sys2Proof.Machine
end

section
/-! The ring buffer (43_ring_buffer.md): the three primitives issued where they are taken at once, what they do to the list
the ring holds, scripts of pushes and pops, and the issues that are refused. -/

namespace Sys2Proof.Machine

section
variable {s : State}

/-! ### The push (43 R149 to R151) -/

theorem ringFull_eq_false (hne : nextHead s ≠ s.rb.tail) : ringFull s = false :=
  Bool.eq_false_iff.2 (mt (ringFull_iff s).1 hne)

theorem ringPush_full (f : Frame) (hfull : ringFull s = true) : ringPush f s = .next (setSoftwareLoss s) :=
  if_pos hfull

theorem ringPush_room (f : Frame) (hfull : ringFull s = false) (hh : s.rb.head < s.cfg.n) :
    ringPush f s = .next (pushed f s) := by
  simp only [ringPush, hfull, memWrite, hh, if_true]
  rfl

section
variable (f : Frame) (hl : s.level ≠ .dlg) (ha : s.ing.active = false)
include hl ha

/-- Outside the dialog, with no invocation in progress, the push is the producer's one step. -/
theorem exec_rbPush_direct :
    exec (.rbPush f) s = andThen (ringPush f s) (fun t => .next (returns (.bool (!ringFull s)) t)) :=
  (if_neg hl).trans (if_neg (by simp [ha]))

theorem exec_rbPush_full (hfull : ringFull s = true) :
    exec (.rbPush f) s = .next (returns (.bool false) (setSoftwareLoss s)) := by
  rw [exec_rbPush_direct f hl ha, ringPush_full f hfull, andThen_next, hfull]
  rfl

theorem exec_rbPush_room (hfull : ringFull s = false) (hh : s.rb.head < s.cfg.n) :
    exec (.rbPush f) s = .next (returns (.bool true) (pushed f s)) := by
  rw [exec_rbPush_direct f hl ha, ringPush_room f hfull hh, andThen_next, hfull]
  rfl

end

/-- Settles O40: a push with room is `pushed`. -/
theorem pushStoresAtHead : Obligations.PushStoresAtHead := by
  intro s f hl ha hh ht hne
  have room : ringFull s = false := ringFull_eq_false hne
  exact ⟨_, exec_rbPush_room f hl ha room hh, rfl, Memory.read_write_same _ _ _,
    fun _ hj => Memory.read_write_other _ _ hj, occupancy_push hh ht room rfl rfl rfl⟩

/-- Settles O41: a push on a full ring raises softwareBufferOverflow. -/
theorem pushOnAFullRingDropsTheNewest : Obligations.PushOnAFullRingDropsTheNewest :=
  fun s f hl ha hfull => exec_rbPush_full f hl ha ((ringFull_iff s).2 hfull)

/-! ### The pop and the reset (43 R152 to R154) -/

/-- `s` after a pop of `f` (43 R152). -/
def popped (f : Frame) (s : State) : State :=
  returns (.frame (some f)) (setTail (reduceIndex s.cfg (s.rb.tail + 1)) s)

theorem ringPop_empty (he : s.rb.head = s.rb.tail) : ringPop s = .next (returns (.frame none) s) :=
  if_pos ((ringEmpty_iff s).2 he)

theorem ringPop_takes {f : Frame} (hne : s.rb.head ≠ s.rb.tail) (ht : s.rb.tail < s.cfg.n)
    (hr : s.rb.slots.read s.rb.tail = some f) : ringPop s = .next (popped f s) := by
  have holds : ¬ ringEmpty s = true := mt (ringEmpty_iff s).1 hne
  simp only [ringPop, holds, memRead, ht, hr, if_true]
  rfl

theorem popPartWay_free (hb : mainBusy s = false) : popPartWay s = false := by
  simp [popPartWay, (mainBusy_eq_false.1 hb).1]

section
variable (hl : s.level = .api ∨ s.level = .prim) (hb : mainBusy s = false)
include hl hb

theorem exec_rbPop_empty (he : s.rb.head = s.rb.tail) : exec .rbPop s = .next (returns (.frame none) s) :=
  (exec_rbPop_consumer hl (popPartWay_free hb)).trans (callMain_oneStep hb (ringPop_empty he) rfl)

theorem exec_rbPop_takes {f : Frame} (hne : s.rb.head ≠ s.rb.tail) (ht : s.rb.tail < s.cfg.n)
    (hr : s.rb.slots.read s.rb.tail = some f) : exec .rbPop s = .next (popped f s) :=
  (exec_rbPop_consumer hl (popPartWay_free hb)).trans (callMain_oneStep hb (ringPop_takes hne ht hr) rfl)

theorem exec_rbReset_free : exec .rbReset s = .next (ringReset s) :=
  (exec_rbReset_consumer hl (popPartWay_free hb) (mainBusy_eq_false.1 hb).2.1).trans (callMain_oneStep hb rfl rfl)

end

/-- Settles O42: a pop of a ring that is not empty is `popped`. -/
theorem popTakesFromTail : Obligations.PopTakesFromTail :=
  fun _ hl hb => ⟨fun _ hne hh ht hr => ⟨_, exec_rbPop_takes hl hb hne ht hr, rfl, occupancy_pop hh ht hne rfl rfl rfl⟩,
    exec_rbPop_empty hl hb⟩

/-- Settles O43: the call's one step is `ringReset`. -/
theorem resetZeroesBothIndices : Obligations.ResetZeroesBothIndices :=
  fun _ hl hb => exec_rbReset_free hl hb

/-! ### The list the ring holds (43 R147) -/

/-- MAIN is free at one of its levels, and the ring holds the frames `q`. -/
structure HoldsQueue (q : List Frame) (s : State) : Prop where
  level : s.level = .api ∨ s.level = .prim
  free : mainBusy s = false
  head_lt : s.rb.head < s.cfg.n
  tail_lt : s.rb.tail < s.cfg.n
  held : ringHeld s = q.map some

/-- Every held slot has been written, so what the ring holds is a list of frames. -/
theorem DataInv.exists_holdsQueue (h : DataInv s) (hl : s.level = .api ∨ s.level = .prim) (hb : mainBusy s = false) :
    ∃ q, HoldsQueue q s := by
  have written : ∀ x ∈ ringHeld s, ∃ f, some f = x := by
    intro x hx
    obtain ⟨j, hj, rfl⟩ := List.mem_map.1 hx
    obtain ⟨f, hf⟩ := Option.isSome_iff_exists.1 (h.held j (List.mem_range.1 hj))
    exact ⟨f, hf.symm⟩
  obtain ⟨q, hq⟩ : ringHeld s ∈ Set.range (List.map some) := (Set.range_list_map some).ge written
  exact ⟨q, hl, hb, h.indices.1, h.indices.2, hq.symm⟩

section
variable {q : List Frame} (h : HoldsQueue q s)
include h

theorem HoldsQueue.length_eq : q.length = occupancy s := by
  rw [← length_ringHeld, h.held, List.length_map]

theorem HoldsQueue.full_iff : ringFull s = true ↔ q.length = s.cfg.n - 1 :=
  h.length_eq ▸ ringFull_iff_occupancy h.head_lt h.tail_lt

theorem HoldsQueue.length_of_not_lt (hlen : ¬ q.length < s.cfg.n - 1) : q.length = s.cfg.n - 1 := by
  have := occupancy_lt s
  have := h.length_eq
  omega

theorem HoldsQueue.ne_dlg : s.level ≠ .dlg := ne_dlg_of_api_or_prim h.level

theorem HoldsQueue.idle : s.ing.active = false := (mainBusy_eq_false.1 h.free).2.1

/-- A push with room appends (43 R150). -/
theorem HoldsQueue.push_room (f : Frame) (hlen : q.length < s.cfg.n - 1) :
    exec (.rbPush f) s = .next (returns (.bool true) (pushed f s)) ∧
      HoldsQueue (q ++ [f]) (returns (.bool true) (pushed f s)) := by
  have room : ringFull s = false := Bool.eq_false_iff.2 (mt h.full_iff.1 (by omega))
  have appended : ringHeld (pushed f s) = ringHeld s ++ [some f] := ringHeld_push h.head_lt h.tail_lt room rfl rfl
  exact ⟨exec_rbPush_room f h.ne_dlg h.idle room h.head_lt,
    { h with head_lt := nextHead_lt s, held := appended.trans (by simp [h.held]) }⟩

/-- A push on a full queue leaves it (43 R151). -/
theorem HoldsQueue.push_full (f : Frame) (hlen : q.length = s.cfg.n - 1) :
    exec (.rbPush f) s = .next (returns (.bool false) (setSoftwareLoss s)) ∧
      HoldsQueue q (returns (.bool false) (setSoftwareLoss s)) :=
  ⟨exec_rbPush_full f h.ne_dlg h.idle (h.full_iff.2 hlen), { h with }⟩

end

/-- A pop of an empty queue answers none (43 R153). -/
theorem HoldsQueue.pop_nil (h : HoldsQueue [] s) :
    exec .rbPop s = .next (returns (.frame none) s) ∧ HoldsQueue [] (returns (.frame none) s) :=
  ⟨exec_rbPop_empty h.level h.free ((ringHeld_eq_nil h.head_lt h.tail_lt).1 h.held), { h with }⟩

/-- The oldest frame held stands in the tail slot. -/
theorem read_tail_of_ringHeld {x : Option Frame} {q : List (Option Frame)} (ht : s.rb.tail < s.cfg.n)
    (h : ringHeld s = x :: q) : s.rb.slots.read s.rb.tail = x := by
  have ho : occupancy s = q.length + 1 := by rw [← length_ringHeld, h, List.length_cons]
  simp only [ringHeld, ho, List.range_succ_eq_map, List.map_cons, List.cons.injEq, Nat.add_zero, reduceIndex_eq_mod,
    Nat.mod_eq_of_lt ht] at h
  exact h.1

/-- A pop takes the oldest frame (43 R152). -/
theorem HoldsQueue.pop_cons {f : Frame} {q : List Frame} (h : HoldsQueue (f :: q) s) :
    exec .rbPop s = .next (popped f s) ∧ HoldsQueue q (popped f s) := by
  have hne : s.rb.head ≠ s.rb.tail := mt (ringHeld_eq_nil h.head_lt h.tail_lt).2 (by simp [h.held])
  have hr : s.rb.slots.read s.rb.tail = some f := read_tail_of_ringHeld h.tail_lt h.held
  have taken : ringHeld s = some f :: ringHeld (popped f s) := ringHeld_pop h.head_lt h.tail_lt hne hr rfl rfl
  exact ⟨exec_rbPop_takes h.level h.free hne h.tail_lt hr,
    { h with tail_lt := reduceIndex_lt _ _, held := (List.cons.inj (taken.symm.trans h.held)).2 }⟩

/-- Settles O44: under the invariant the ring holds a queue of frames, and each primitive acts on it. -/
theorem ringPrimitivesActOnTheHeldList : Obligations.RingPrimitivesActOnTheHeldList := by
  intro s hd hl hb
  obtain ⟨q, h⟩ := hd.exists_holdsQueue hl hb
  have hlen : (ringHeld s).length = q.length := by rw [h.held, List.length_map]
  refine ⟨fun f room => ?_, fun f full => ?_, fun x r hx => ?_, fun he => ?_,
    ⟨_, exec_rbReset_free hl hb, ringHeld_reset s⟩⟩
  · obtain ⟨hx, ht⟩ := h.push_room f (hlen ▸ room)
    exact ⟨_, hx, rfl, by simp [ht.held, h.held], rfl⟩
  · obtain ⟨hx, ht⟩ := h.push_full f (hlen ▸ full)
    exact ⟨_, hx, rfl, ht.held.trans h.held.symm, rfl⟩
  · obtain ⟨f, r, rfl, rfl, rfl⟩ := List.map_eq_cons_iff.1 (h.held.symm.trans hx)
    obtain ⟨hx, ht⟩ := h.pop_cons
    exact ⟨f, _, rfl, hx, rfl, ht.held, rfl⟩
  · obtain rfl : q = [] := List.map_eq_nil_iff.1 (h.held.symm.trans he)
    obtain ⟨hx, ht⟩ := h.pop_nil
    exact ⟨_, hx, rfl, ht.held⟩

/-! ### Scripts of pushes and pops (43 R155 to R157) -/

theorem script_cons {t : State} {i : Instr} (is : List Instr) (hx : exec i s = .next t) :
    script (i :: is) s = (script is t).map (fun p => (t.ret :: p.1, p.2)) := by
  simp only [script, hx]

/-- What issuing `is` on a ring that holds `q` gives, results, frames left and overflow, is what the bounded queue gives. -/
def FollowsQueue (is : List Instr) (q : List Frame) (s : State) : Prop :=
  ∃ u, script is s = some ((queueScript (s.cfg.n - 1) is q).1, u) ∧
    ringHeld u = (queueScript (s.cfg.n - 1) is q).2.1.map some ∧
    u.ovf.softwareLoss = (s.ovf.softwareLoss || (queueScript (s.cfg.n - 1) is q).2.2) ∧
    u.ovf.hardwareLoss = s.ovf.hardwareLoss

/-- One operation to `t`, answered alike by the bounded queue that goes from `q` to `q'` and loses a frame where `lost`. -/
structure AnswersAlike (i : Instr) (q q' : List Frame) (lost : Bool) (s t : State) : Prop where
  runs : exec i s = .next t
  cfg : t.cfg = s.cfg
  ovf : t.ovf = { s.ovf with softwareLoss := s.ovf.softwareLoss || lost }
  queue : ∀ is, queueScript (s.cfg.n - 1) (i :: is) q =
    (t.ret :: (queueScript (s.cfg.n - 1) is q').1, (queueScript (s.cfg.n - 1) is q').2.1,
      lost || (queueScript (s.cfg.n - 1) is q').2.2)

theorem AnswersAlike.followsQueue {i : Instr} {is : List Instr} {q q' : List Frame} {lost : Bool} {t : State}
    (h : AnswersAlike i q q' lost s t) (rest : FollowsQueue is q' t) : FollowsQueue (i :: is) q s := by
  obtain ⟨u, hu, held, soft, hard⟩ := rest
  rw [h.cfg] at hu held soft
  refine ⟨u, ?_, ?_, ?_, ?_⟩
  · rw [script_cons is h.runs, hu, h.queue, Option.map_some]
  · rw [held, h.queue]
  · rw [soft, h.queue, h.ovf, Bool.or_assoc]
  · rw [hard, h.ovf]

/-- The branches of the bounded queue: a push with room, a push on a full queue, a pop of none and of the oldest frame. -/
theorem HoldsQueue.answersAlike {q : List Frame} {i : Instr} (h : HoldsQueue q s) (hi : pushOrPop i) :
    ∃ q' lost t, AnswersAlike i q q' lost s t ∧ HoldsQueue q' t := by
  obtain ⟨f, -, rfl⟩ | rfl := hi
  · by_cases hlen : q.length < s.cfg.n - 1
    · obtain ⟨hx, ht⟩ := h.push_room f hlen
      exact ⟨_, false, _, ⟨hx, rfl, by simp [pushed], fun is => by simp [queueScript, hlen]⟩, ht⟩
    · obtain ⟨hx, ht⟩ := h.push_full f (h.length_of_not_lt hlen)
      exact ⟨_, true, _, ⟨hx, rfl, by simp, fun is => by simp [queueScript, hlen]⟩, ht⟩
  · cases q with
    | nil =>
      obtain ⟨hx, ht⟩ := h.pop_nil
      exact ⟨_, false, _, ⟨hx, rfl, by simp, fun is => rfl⟩, ht⟩
    | cons f q =>
      obtain ⟨hx, ht⟩ := h.pop_cons
      exact ⟨_, false, _, ⟨hx, rfl, by simp [popped], fun is => rfl⟩, ht⟩

theorem HoldsQueue.followsQueue (is : List Instr) {q : List Frame} (h : HoldsQueue q s) (his : ∀ i ∈ is, pushOrPop i) :
    FollowsQueue is q s := by
  induction is generalizing q s with
  | nil => exact ⟨s, rfl, h.held, (Bool.or_false _).symm, rfl⟩
  | cons i is ih =>
    obtain ⟨hi, his⟩ := List.forall_mem_cons.1 his
    obtain ⟨q', lost, t, alike, ht⟩ := h.answersAlike hi
    exact alike.followsQueue (ih ht his)

/-- Settles O45, by induction over the operations: the queue the ring holds answers each of them as the bounded queue. -/
theorem pushesAndPopsFollowTheBoundedQueue : Obligations.PushesAndPopsFollowTheBoundedQueue :=
  fun is _ _ hd hl hb his hq => HoldsQueue.followsQueue is ⟨hl, hb, hd.indices.1, hd.indices.2, hq⟩ his

/-! ### Breaks of the discipline (43 R148, R160; 45 R191; 70 R250; log 13) -/

theorem consumerContext_of_handler (h : s.level = .irq ∨ s.level = .ext ∨ s.level = .env) :
    consumerContext s.level = false ∧ s.level ≠ .dlg := by
  obtain h | h | h := h <;> rw [h] <;> decide

section
variable (hl : s.level ≠ .dlg)
include hl

theorem exec_rbPop_refused (h : consumerContext s.level = false ∨ popPartWay s = true) :
    exec .rbPop s = .refused .discipline :=
  (if_neg hl).trans (if_pos (by simpa using h))

theorem exec_rbReset_refused (h : consumerContext s.level = false ∨ popPartWay s = true ∨ s.ing.active = true) :
    exec .rbReset s = .refused .discipline :=
  (if_neg hl).trans (if_pos (by simpa [or_assoc] using h))

end

/-- Settles O46: each break is a guard of the operation it refuses. -/
theorem disciplineBreaksAreRefused : Obligations.DisciplineBreaksAreRefused := by
  refine fun s => ⟨fun handler => ?_, fun ha hl => ?_, fun hp hl => ?_⟩
  · obtain ⟨hc, hl⟩ := consumerContext_of_handler handler
    exact ⟨(if_neg hl).trans (if_pos hc), (if_neg hl).trans (if_pos hc), exec_rbPop_refused hl (.inl hc),
      exec_rbReset_refused hl (.inl hc)⟩
  · exact ⟨fun _ => (if_neg hl).trans (if_pos ha), (if_neg hl).trans (if_pos ha),
      exec_rbReset_refused hl (.inr (.inr ha))⟩
  · have partWay : popPartWay s = true := popPartWay_iff.2 hp
    exact ⟨exec_rbPop_refused hl (.inr partWay), exec_rbReset_refused hl (.inr (.inl partWay))⟩

end

end Sys2Proof.Machine
end

section
/-! The Ingest Path (44_ingest_path.md): a frame on the bus, what one step of an invocation writes, an invocation without
arrivals as the offer of its frames to the ring, and its return whatever turns stand between its steps. -/

namespace Sys2Proof.Machine

section
variable {s t : State}

/-! ### A frame on the bus (44 R167) -/

/-- A stopped peripheral, a wrong rate or the filter leaves the frame unseen. -/
theorem busArrives_ignores {f : Frame} (h : s.per.running = false ∨
    rateOk s.cfg s.per.prescaler s.per.timeSeg1 s.per.timeSeg2 = false ∨
    accept s.cfg s.per.filterId s.per.maskId f = false) : busArrives f s = s := by
  unfold busArrives
  obtain h | h | h := h <;> simp [h]

/-- A frame the peripheral can receive, and has no room for, is lost. -/
theorem busArrives_loses {f : Frame} (hr : s.per.running = true)
    (hrate : rateOk s.cfg s.per.prescaler s.per.timeSeg1 s.per.timeSeg2 = true)
    (hacc : accept s.cfg s.per.filterId s.per.maskId f = true) (hfull : s.cfg.hwqDepth ≤ s.per.rxq.length) :
    busArrives f s = { s with per := { s.per with lost := true } } := by
  simp [busArrives, hr, hrate, hacc, Nat.not_lt.2 hfull]

/-- An arrival writes the peripheral only. -/
theorem busArrives_eq (f : Frame) (s : State) : busArrives f s = { s with per := (busArrives f s).per } := by
  obtain h | ⟨-, -, h⟩ | ⟨-, -, h⟩ := busArrives_cases f s <;> rw [h]

/-- The turns listed do not decide what becomes of a frame. -/
theorem busArrives_withSched (f : Frame) (r : List Turn) (s : State) :
    busArrives f { s with sched := r } = { busArrives f s with sched := r } := by
  unfold busArrives
  split_ifs <;> rfl

theorem step_bus {f : Frame} {r : List Turn} (hs : s.sched = .bus f :: r) (hf : f.wf) :
    step s = .next { busArrives f s with sched := r } := by
  have arrives : takeTurn (.bus f) { s with sched := r } = .next (busArrives f { s with sched := r }) := if_pos hf
  rw [step_listed hs, arrives, busArrives_withSched]

/-- Settles O47: the peripheral is that of `busArrives`, whose three outcomes the premises tell apart. -/
theorem busRxQueuesOrLosesTheFrame : Obligations.BusRxQueuesOrLosesTheFrame := by
  refine fun s f => ⟨opOf_encode (.busRx f), frameOf_word108 _ f, accept_zero s.cfg f, (busArrives f s).per,
    fun hr => ?_, fun hrate => ?_, fun hacc => ?_, fun hr hrate hacc => ⟨fun hroom => ?_, fun hfull => ?_⟩,
    fun hl => ?_, fun r hs hf => ?_⟩
  · rw [busArrives_ignores (.inl hr)]
  · rw [busArrives_ignores (.inr (.inl hrate))]
  · rw [busArrives_ignores (.inr (.inr hacc))]
  · rw [busArrives_queues hr hrate hacc hroom]
  · rw [busArrives_loses hr hrate hacc hfull]
  · rw [← busArrives_eq]
    exact if_neg hl
  · rw [step_bus hs hf, busArrives_eq]

/-! ### What one step of an invocation writes (44 R175) -/

/-- `s` with every element the Ingest Path writes, and the turns listed, at a fixed value. -/
def besidesIngest (s : State) : State :=
  { s with
    rb := { s.rb with slots := [], head := 0 }
    ovf := ⟨false, false⟩
    per := { s.per with rxq := [], lost := false }
    ing := State.reset.ing
    sched := [] }

theorem eq_of_besidesIngest (h : besidesIngest t = besidesIngest s) :
    t = { s with
      rb := { slots := t.rb.slots, head := t.rb.head, tail := s.rb.tail }
      ovf := t.ovf
      per := { s.per with rxq := t.per.rxq, lost := t.per.lost }
      ing := t.ing
      sched := t.sched } := by
  obtain ⟨_, _, ⟨_, _, _⟩, _, _, ⟨⟩, _, _, _, _, _, _, _, _, _⟩ := s
  obtain ⟨_, _, ⟨_, _, _⟩, _, _, ⟨⟩, _, _, _, _, _, _, _, _, _⟩ := t
  simp only [besidesIngest, State.mk.injEq, Ring.mk.injEq, Peripheral.mk.injEq] at h ⊢
  tauto

section
variable (h : IsrRes s (.next t))
include h

theorem IsrRes.besides : besidesIngest t = besidesIngest s := by
  cases h <;> rfl

/-- Only the slot at head is stored to. -/
theorem IsrRes.read_other {j : Nat} (hj : j ≠ s.rb.head) : t.rb.slots.read j = s.rb.slots.read j := by
  cases h with
  | i5_stores => exact Memory.read_write_other _ _ hj
  | _ => rfl

/-- Frames leave the hardware queue oldest first, one at a step. -/
theorem IsrRes.rxq : t.per.rxq = s.per.rxq ∨ ∃ f, s.per.rxq = f :: t.per.rxq := by
  cases h with
  | i4 f q _ hq => exact .inr ⟨f, hq⟩
  | _ => exact .inl rfl

theorem IsrRes.lost (ht : t.per.lost = true) : s.per.lost = true := by
  cases h with
  | i1_lost => cases ht
  | _ => exact ht

/-- A set flag stays set. -/
theorem IsrRes.flags : (s.ovf.hardwareLoss = true → t.ovf.hardwareLoss = true) ∧
    (s.ovf.softwareLoss = true → t.ovf.softwareLoss = true) := by
  obtain ho | ⟨-, -, -, ho⟩ | ⟨-, -, -, ho⟩ := h.ovf <;> rw [ho]
  · exact ⟨id, id⟩
  · exact ⟨fun _ => rfl, id⟩
  · exact ⟨id, fun _ => rfl⟩

end

/-- While an invocation is in progress the processor's turn is a step of it (00 R8). -/
theorem step_cpu_ingest {r : List Turn} (hs : s.sched = .cpu :: r) (ha : s.ing.active = true) :
    step s = isrStep { s with sched := r } :=
  (step_listed hs).trans (if_pos ha)

/-- From the invariant the Ingest Path is neither at a fault nor refused: it waits for nothing. -/
theorem isrStep_goes (h : BlockInv s) (ha : s.ing.active = true) : ∃ t, isrStep s = .next t ∧ BlockInv t := by
  have sound := isrStep_sound h ha
  have res := isrStep_res s
  generalize isrStep s = r at sound res
  cases r with
  | next t => exact ⟨t, rfl, sound⟩
  | fault e =>
    obtain ⟨u, hu, -⟩ := sound
    cases hu
  | refused e => cases res

theorem envTurn_irq_active (ha : s.ing.active = true) : envTurn .irq s = .next s :=
  if_neg (by simp [ingestEnabled, ha])

/-- Settles O50: each of the step's answers writes what `besidesIngest` leaves out; a second invocation is not begun. -/
theorem ingestStepsTouchNothingElse : Obligations.IngestStepsTouchNothingElse := by
  refine ⟨fun s t r hs ha ht => ?_, fun s r hi hs ha => ?_, fun s r hs ha => ?_, fun s ha hl => ?_⟩
  · have res : IsrRes { s with sched := r } (.next t) := (step_cpu_ingest hs ha).symm.trans ht ▸ isrStep_res _
    have sched : t.sched = r := res.keeps.1
    exact ⟨sched ▸ eq_of_besidesIngest res.besides, fun _ => res.read_other, res.rxq, res.lost, res.flags⟩
  · obtain ⟨t, ht, -⟩ := isrStep_goes (hi.keptBy_withSched r) ha
    exact ⟨t, (step_cpu_ingest hs ha).trans ht⟩
  · exact (step_listed hs).trans (envTurn_irq_active ha)
  · exact (if_neg hl).trans (if_pos ha)

/-! ### The lost-message test (44 R170) -/

/-- `s` after the lost-message test. -/
def lossTested (s : State) : State :=
  { s with
    ovf := { s.ovf with hardwareLoss := s.per.lost || s.ovf.hardwareLoss }
    per := { s.per with lost := false }
    ing := { s.ing with pos := .i2 } }

theorem isrStep_i1 (hp : s.ing.pos = .i1) : isrStep s = .next (lossTested s) := by
  have test : isrStep s = stepI1 s := by simp only [isrStep, hp]
  rw [test]
  obtain ⟨_, _, _, ⟨_, _⟩, _, ⟨_, _, _, _, _, _, _, _, lost⟩, _⟩ := s
  cases lost <;> rfl

/-- Settles O51: i1 is `lossTested`; of the other steps only i0 leads to it. -/
theorem lostMessageTestIsMadeOnce : Obligations.LostMessageTestIsMadeOnce := by
  refine ⟨fun s hp => ⟨fun hl => ?_, fun hl => ?_⟩, fun s t hp ht => ?_, fun s t hp ht => ?_⟩
  · rw [isrStep_i1 hp, lossTested, hl, Bool.true_or]
  · rw [isrStep_i1 hp, lossTested, hl, Bool.false_or, ← hl]
  · cases ht ▸ isrStep_res s with
    | i0 h0 => exact .inr h0
    | _ => exact .inl nofun
  · cases ht ▸ isrStep_res s with
    | i1_lost h1 | i1 h1 => exact absurd h1 hp
    | _ => exact ⟨rfl, rfl⟩

/-! ### What the ring keeps of the frames offered to it (44 R172) -/

/-- `s` after the push of `f`: stored at head and published, or dropped with the flag set on a full ring. -/
def offered (f : Frame) (s : State) : State :=
  { s with
    rb := if ringFull s then s.rb else ⟨s.rb.slots.write s.rb.head f, nextHead s, s.rb.tail⟩
    ovf := { s.ovf with softwareLoss := s.ovf.softwareLoss || ringFull s } }

theorem offered_full {f : Frame} (hf : ringFull s = true) : offered f s = setSoftwareLoss s := by
  simp only [offered, hf, if_true, Bool.or_true]
  rfl

theorem offered_room {f : Frame} (hf : ringFull s = false) : offered f s = pushed f s := by
  simp only [offered, hf, Bool.false_eq_true, if_false, Bool.or_false]
  rfl

theorem ringPush_offers (f : Frame) (hh : s.rb.head < s.cfg.n) : ringPush f s = .next (offered f s) := by
  cases hf : ringFull s with
  | true => rw [ringPush_full f hf, offered_full hf]
  | false => rw [ringPush_room f hf hh, offered_room hf]

theorem besidesIngest_offered (f : Frame) (s : State) : besidesIngest (offered f s) = besidesIngest s := by
  cases hf : ringFull s with
  | true => rw [offered_full hf]; rfl
  | false => rw [offered_room hf]; rfl

/-- The ring and its flag at `v` are those at `s` after the frames `fs` have been offered to the ring in turn. -/
structure RingOffered (fs : List Frame) (s v : State) : Prop where
  cfg : v.cfg = s.cfg
  tail : v.rb.tail = s.rb.tail
  inside : v.rb.head < s.cfg.n
  held : ringHeld v = (ringHeld s ++ fs.map some).take (s.cfg.n - 1)
  head : occupancy s + fs.length ≤ s.cfg.n - 1 → v.rb.head = reduceIndex s.cfg (s.rb.head + fs.length)
  slots : ∀ j, (∀ k, k < fs.length → occupancy s + k < s.cfg.n - 1 → j ≠ reduceIndex s.cfg (s.rb.head + k)) →
    v.rb.slots.read j = s.rb.slots.read j
  flag : v.ovf.softwareLoss = (s.ovf.softwareLoss || decide (s.cfg.n - 1 < occupancy s + fs.length))

/-- The occupancy is at most N-1 (10 R26). -/
theorem occupancy_le (s : State) : occupancy s ≤ s.cfg.n - 1 := Nat.le_sub_one_of_lt (occupancy_lt s)

theorem RingOffered.refl (hh : s.rb.head < s.cfg.n) : RingOffered [] s s where
  cfg := rfl
  tail := rfl
  inside := hh
  held := by
    rw [List.map_nil, List.append_nil, List.take_of_length_le]
    exact (length_ringHeld s).trans_le (occupancy_le s)
  head _ := by rw [List.length_nil, Nat.add_zero, reduceIndex_eq_mod, Nat.mod_eq_of_lt hh]
  slots _ _ := rfl
  flag := by simp [Nat.not_lt.2 (occupancy_le s)]

section
variable {v : State} {fs : List Frame} (h : RingOffered fs s v)
include h

theorem RingOffered.congr {w : State} (hc : w.cfg = v.cfg) (hr : w.rb = v.rb)
    (ho : w.ovf.softwareLoss = v.ovf.softwareLoss) : RingOffered fs s w where
  cfg := hc.trans h.cfg
  tail := by rw [hr, h.tail]
  inside := hr ▸ h.inside
  held := by
    have same : ringHeld w = ringHeld v := by simp only [ringHeld, occupancy, hr, hc]
    exact same.trans h.held
  head := hr ▸ h.head
  slots := hr ▸ h.slots
  flag := ho.trans h.flag

theorem RingOffered.occupancy_eq : occupancy v = min (s.cfg.n - 1) (occupancy s + fs.length) := by
  have len := congrArg List.length h.held
  rwa [length_ringHeld, List.length_take, List.length_append, length_ringHeld, List.length_map] at len

variable (ht : s.rb.tail < s.cfg.n)
include ht

theorem RingOffered.full_iff : ringFull v = true ↔ s.cfg.n - 1 ≤ occupancy s + fs.length := by
  have hv := ringFull_iff_occupancy (s := v) (h.cfg ▸ h.inside) (by rw [h.cfg, h.tail]; exact ht)
  rw [hv, h.occupancy_eq, h.cfg]
  omega

/-- On a full ring one frame more is dropped, and the ring stays. -/
theorem RingOffered.offer_full (f : Frame) (hf : ringFull v = true) : RingOffered (fs ++ [f]) s (setSoftwareLoss v) := by
  have dropped : s.cfg.n - 1 ≤ occupancy s + fs.length := (h.full_iff ht).1 hf
  have len : (ringHeld s ++ fs.map some).length = occupancy s + fs.length := by simp [length_ringHeld]
  have count : (fs ++ [f]).length = fs.length + 1 := by simp
  exact {
    cfg := h.cfg
    tail := h.tail
    inside := h.inside
    held := h.held.trans (by
      rw [List.map_append, ← List.append_assoc, List.take_append_of_le_length (dropped.trans_eq len.symm)])
    head := fun hn => absurd hn (by omega)
    slots := fun j hj => h.slots j fun k hk => hj k (by omega)
    flag := by rw [count, decide_eq_true (by omega), Bool.or_true, setSoftwareLoss_ovf] }

/-- With room one frame more is stored at head and becomes the newest held. -/
theorem RingOffered.offer_room (f : Frame) (hf : ringFull v = false) : RingOffered (fs ++ [f]) s (pushed f v) := by
  have room : occupancy s + fs.length < s.cfg.n - 1 := Nat.lt_of_not_le (mt (h.full_iff ht).2 (by simp [hf]))
  have len : (ringHeld s ++ fs.map some).length = occupancy s + fs.length := by simp [length_ringHeld]
  have count : (fs ++ [f]).length = fs.length + 1 := by simp
  have head : v.rb.head = reduceIndex s.cfg (s.rb.head + fs.length) := h.head room.le
  have held : ringHeld (pushed f v) = ringHeld v ++ [some f] :=
    ringHeld_push (h.cfg ▸ h.inside) (by rw [h.cfg, h.tail]; exact ht) hf rfl rfl
  exact {
    cfg := h.cfg
    tail := h.tail
    inside := h.cfg ▸ nextHead_lt v
    held := by
      rw [held, h.held, List.take_of_length_le (len.trans_le room.le), List.map_append, ← List.append_assoc,
        List.take_of_length_le]
      · rfl
      · simpa [length_ringHeld, ← Nat.add_assoc] using room
    head := fun _ => by
      have next : (pushed f v).rb.head = reduceIndex s.cfg (v.rb.head + 1) := h.cfg ▸ rfl
      rw [next, head, count]
      simp only [reduceIndex_eq_mod, Nat.mod_add_mod, Nat.add_assoc]
    slots := fun j hj => by
      have other : j ≠ v.rb.head := head ▸ hj fs.length (by omega) room
      exact (Memory.read_write_other _ _ other).trans (h.slots j fun k hk => hj k (by omega))
    flag := h.flag.trans (by rw [decide_eq_false (by omega), decide_eq_false (by omega)]) }

theorem RingOffered.offer (f : Frame) : RingOffered (fs ++ [f]) s (offered f v) := by
  cases hf : ringFull v with
  | true => exact offered_full hf ▸ h.offer_full ht f hf
  | false => exact offered_room hf ▸ h.offer_room ht f hf

end

/-! ### An invocation without arrivals (44 R169 to R173) -/

/-- Issued outside the dialog with none in progress, an invocation is entered and goes on through the listed turns. -/
theorem exec_ingest_idle (hl : s.level ≠ .dlg) (ha : s.ing.active = false) :
    exec .ingest s = carryOn ingestInProgress s.sched (enterIngest s) :=
  (if_neg hl).trans (if_neg (by simp [ha]))

theorem isrStep_i3_more (hp : s.ing.pos = .i3) (hn : s.ing.n < s.cfg.drainBound) (hq : s.per.rxq ≠ []) :
    isrStep s = .next (setIngPos .i4 s) := by
  simp [isrStep, hp, stepI3, Nat.not_le.2 hn, hq]

theorem isrStep_i3_done (hp : s.ing.pos = .i3) (h : s.cfg.drainBound ≤ s.ing.n ∨ s.per.rxq = []) :
    isrStep s = .next (setIngPos .i6 s) := by
  simp [isrStep, hp, stepI3, h]

theorem isrStep_i4 {f : Frame} {q : List Frame} (hp : s.ing.pos = .i4) (hq : s.per.rxq = f :: q) :
    isrStep s = .next (setIngPos .i5
      { s with per := { s.per with rxq := q }, ing := { s.ing with f := f, n := s.ing.n + 1 } }) := by
  simp only [isrStep, hp, stepI4, perRxqPop, hq]

theorem isrStep_i5 (hp : s.ing.pos = .i5) (hh : s.rb.head < s.cfg.n) :
    isrStep s = .next (setIngPos .i3 { offered s.ing.f s with ing := { s.ing with nh := nextHead s } }) := by
  simp only [isrStep, hp, stepI5, ringPush_offers _ hh, andThen_next]
  rfl

/-- `v` with its oldest queued frame `f` taken and offered to the ring, `q` still queued and `r` still listed. -/
def drained (f : Frame) (q : List Frame) (r : List Turn) (v : State) : State :=
  { offered f v with
    per := { v.per with rxq := q }
    ing := { v.ing with pos := .i3, f := f, n := v.ing.n + 1, nh := nextHead v }
    sched := r }

section
variable {v : State} {fs : List Frame}

/-- i3 to i5 in three turns of the processor. -/
theorem carryOn_drains {f : Frame} {q : List Frame} (r : List Turn) (ha : v.ing.active = true) (hp : v.ing.pos = .i3)
    (hn : v.ing.n < v.cfg.drainBound) (hq : v.per.rxq = f :: q) (hh : v.rb.head < v.cfg.n) :
    carryOn ingestInProgress (.cpu :: .cpu :: .cpu :: r) v = carryOn ingestInProgress r (drained f q r v) := by
  have more : v.per.rxq ≠ [] := hq ▸ List.cons_ne_nil f q
  calc carryOn ingestInProgress (.cpu :: .cpu :: .cpu :: r) v
    _ = carryOn ingestInProgress (.cpu :: .cpu :: r)
          { v with ing := { v.ing with pos := .i4 }, sched := .cpu :: .cpu :: r } :=
        carryOn_ingest_next _ ha (isrStep_i3_more hp hn more)
    _ = carryOn ingestInProgress (.cpu :: r)
          { v with
            per := { v.per with rxq := q }
            ing := { v.ing with pos := .i5, f := f, n := v.ing.n + 1 }
            sched := .cpu :: r } :=
        carryOn_ingest_next _ ha (isrStep_i4 rfl hq)
    _ = carryOn ingestInProgress r (drained f q r v) := carryOn_ingest_next _ ha (isrStep_i5 rfl hh)

/-- i3 and i6 in two turns of the processor. -/
theorem carryOn_leaves (r : List Turn) (ha : v.ing.active = true) (hp : v.ing.pos = .i3)
    (hd : v.cfg.drainBound ≤ v.ing.n ∨ v.per.rxq = []) :
    carryOn ingestInProgress (.cpu :: .cpu :: r) v = .next (leaveIngest { v with sched := r }) := by
  calc carryOn ingestInProgress (.cpu :: .cpu :: r) v
    _ = carryOn ingestInProgress (.cpu :: r) { v with ing := { v.ing with pos := .i6 }, sched := .cpu :: r } :=
        carryOn_ingest_next _ ha (isrStep_i3_done hp hd)
    _ = carryOn ingestInProgress r (leaveIngest { v with sched := r }) := carryOn_ingest_next _ ha rfl
    _ = .next (leaveIngest { v with sched := r }) := carryOn_done r rfl

/-- `v` is reached, at i3, by an invocation begun in `s` with no arrival since, which has drained the frames `fs` and left
`queue` in the hardware queue. -/
structure Drained (fs queue : List Frame) (s v : State) : Prop where
  active : v.ing.active = true
  place : v.ing.pos = .i3
  count : v.ing.n = fs.length
  queue : v.per.rxq = queue
  lost : v.per.lost = false
  hardwareLoss : v.ovf.hardwareLoss = (s.ovf.hardwareLoss || s.per.lost)
  ring : RingOffered fs s v
  besides : besidesIngest v = besidesIngest s

/-- `s` with an invocation at its loop, none drained, `r` still listed. -/
def ingestBegun (r : List Turn) (s : State) : State :=
  { lossTested (enterIngest s) with ing := { s.ing with active := true, pos := .i3, n := 0 }, sched := r }

/-- i1 and i2 in two turns of the processor. -/
theorem carryOn_ingestBegins (r : List Turn) (s : State) :
    carryOn ingestInProgress (.cpu :: .cpu :: r) (enterIngest s) = carryOn ingestInProgress r (ingestBegun r s) := by
  rw [carryOn_ingest_next _ rfl (isrStep_i1 rfl), carryOn_ingest_next (t := ingestBegun r s) r rfl rfl]

theorem drained_ingestBegun (r : List Turn) (hh : s.rb.head < s.cfg.n) : Drained [] s.per.rxq s (ingestBegun r s) where
  active := rfl
  place := rfl
  count := rfl
  queue := rfl
  lost := rfl
  hardwareLoss := Bool.or_comm _ _
  ring := (RingOffered.refl hh).congr rfl rfl rfl
  besides := rfl

/-- One frame more. -/
theorem Drained.drain {f : Frame} {q : List Frame} (h : Drained fs (f :: q) s v) (ht : s.rb.tail < s.cfg.n)
    (r : List Turn) : Drained (fs ++ [f]) q s (drained f q r v) where
  active := h.active
  place := rfl
  count := by simp [drained, h.count]
  queue := rfl
  lost := h.lost
  hardwareLoss := h.hardwareLoss
  ring := (h.ring.offer ht f).congr rfl rfl rfl
  besides := (besidesIngest_offered f v).trans h.besides

/-- Below the bound three turns of the processor drain each frame queued. -/
theorem Drained.run (ht : s.rb.tail < s.cfg.n) (r : List Turn) (left : List Frame) :
    ∀ (fs done : List Frame) (v : State), Drained done (fs ++ left) s v → done.length + fs.length ≤ s.cfg.drainBound →
      ∃ t, carryOn ingestInProgress (List.replicate (3 * fs.length) .cpu ++ r) v = carryOn ingestInProgress r t ∧
        Drained (done ++ fs) left s t := by
  intro fs
  induction fs with
  | nil => exact fun done v h _ => ⟨v, rfl, by simpa using h⟩
  | cons f fs ih =>
    intro done v h hn
    rw [List.length_cons] at hn
    have below : v.ing.n < v.cfg.drainBound := by
      rw [h.count, h.ring.cfg]
      omega
    have drains := carryOn_drains (List.replicate (3 * fs.length) .cpu ++ r) h.active h.place below h.queue
      (h.ring.cfg ▸ h.ring.inside)
    obtain ⟨t, hrun, hd⟩ := ih (done ++ [f]) _ (h.drain ht _) (by simp; omega)
    exact ⟨t, drains.trans hrun, by simpa using hd⟩

/-- Settles O52: i1 and i2, the loop over the frames taken, then i3 at the bound or on an empty queue, and i6. -/
theorem ingestDrainsTheHardwareQueue : Obligations.IngestDrainsTheHardwareQueue := by
  intro s taken r hi ha hl htaken hs
  obtain ⟨hh, ht⟩ := hi.data.indices
  have len : taken.length = min s.cfg.drainBound s.per.rxq.length := by rw [htaken, List.length_take]
  have split : s.per.rxq = taken ++ s.per.rxq.drop s.cfg.drainBound := by rw [htaken, List.take_append_drop]
  have turns : s.sched = .cpu :: .cpu :: (List.replicate (3 * taken.length) .cpu ++ .cpu :: .cpu :: r) := by
    rw [hs, show 3 * taken.length + 4 = 2 + (3 * taken.length + 2) by omega, List.replicate_add, List.replicate_add,
      List.append_assoc, List.append_assoc]
    rfl
  have begun := drained_ingestBegun (List.replicate (3 * taken.length) .cpu ++ .cpu :: .cpu :: r) hh
  rw [split] at begun
  obtain ⟨v, hrun, hv⟩ := Drained.run ht (.cpu :: .cpu :: r) _ taken [] _ begun (by simp [len])
  rw [List.nil_append] at hv
  have done : v.cfg.drainBound ≤ v.ing.n ∨ v.per.rxq = [] := by
    rw [hv.ring.cfg, hv.count, hv.queue, len, List.drop_eq_nil_iff]
    omega
  have leaves := carryOn_leaves r hv.active hv.place done
  refine ⟨leaveIngest { v with sched := r }, ?_, ?_, rfl, hv.count, hv.ring.held, hv.ring.slots, hv.hardwareLoss,
    hv.ring.flag⟩
  · rw [exec_ingest_idle hl ha, turns, carryOn_ingestBegins, hrun, leaves]
  · have queue : (leaveIngest { v with sched := r }).per.rxq = s.per.rxq.drop s.cfg.drainBound := hv.queue
    have lost : (leaveIngest { v with sched := r }).per.lost = false := hv.lost
    exact queue ▸ lost ▸ eq_of_besidesIngest hv.besides

end

/-! ### An invocation, whatever turns stand between its steps (44 R173, R175) -/

/-- What an invocation and the turns between its steps leave as it is: parameters, MAIN, the consumer's index, status,
output, and whether the peripheral runs with its interrupt enabled. -/
def keptByIngest (s : State) : Config.Params × MainCtl × Nat × BusStatus × List Event × Bool × Bool :=
  (s.cfg, s.main, s.rb.tail, s.st, s.out, s.per.running, s.per.rxie)

/-- While an invocation is in progress every other agent has its turn. -/
theorem envTurn_goes_ingesting {u : Turn} (hu : loopTurn u) (ha : s.ing.active = true) : ∃ t, envTurn u s = .next t := by
  cases u with
  | cpu => exact ⟨s, rfl⟩
  | irq => exact ⟨s, envTurn_irq_active ha⟩
  | bus f => exact ⟨busArrives f s, if_pos hu⟩
  | ext => exact ⟨extRequest s, rfl⟩
  | user c => exact ⟨userSends c s, rfl⟩
  | op => exact hu.elim

/-- It moves neither the invocation nor a flag. -/
theorem envTurn_keeps_ingesting {u : Turn} (ha : s.ing.active = true) (h : envTurn u s = .next t) :
    t.ing = s.ing ∧ t.ovf = s.ovf ∧ keptByIngest t = keptByIngest s := by
  obtain ⟨he, -⟩ | ⟨f, -, -, rfl⟩ | ⟨-, rfl⟩ | ⟨c, -, rfl⟩ | rfl := envTurn_cases h
  · simp [ingestEnabled, ha] at he
  · obtain h | ⟨-, -, h⟩ | ⟨-, -, h⟩ := busArrives_cases f s <;> rw [h] <;> exact ⟨rfl, rfl, rfl⟩
  all_goals exact ⟨rfl, rfl, rfl⟩

/-- At i1 and i2 the count is that of the last invocation; from i3 on, and at the return, it is at most DRAIN_BOUND. -/
def withinBound (s : State) : Prop :=
  (s.ing.active = true ∧ (s.ing.pos = .i1 ∨ s.ing.pos = .i2)) ∨ s.ing.n ≤ s.cfg.drainBound

/-- `v` is reached by an invocation begun in `s`, whatever turns stood between its steps. -/
structure InsideIngest (s v : State) : Prop where
  inv : BlockInv v
  kept : keptByIngest v = keptByIngest s
  flags : (s.ovf.hardwareLoss = true → v.ovf.hardwareLoss = true) ∧
    (s.ovf.softwareLoss = true → v.ovf.softwareLoss = true)
  entered : v.ing.active = true → v.ing.pos ≠ .i0
  bound : withinBound v

/-- The most steps an invocation has left. -/
def ingestStepsLeft (s : State) : Nat :=
  match s.ing.pos with
  | .i0 => 0
  | .i1 => 3 * s.cfg.drainBound + 4
  | .i2 => 3 * s.cfg.drainBound + 3
  | .i3 => 3 * (s.cfg.drainBound - s.ing.n) + 2
  | .i4 => 3 * (s.cfg.drainBound - s.ing.n) + 1
  | .i5 => 3 * (s.cfg.drainBound - s.ing.n) + 3
  | .i6 => 1

theorem ingestStepsLeft_pos (hp : s.ing.pos ≠ .i0) : 0 < ingestStepsLeft s := by
  unfold ingestStepsLeft
  split <;> simp_all

/-- Each step but i0 brings the return nearer; at i4 the bound is not reached. -/
theorem IsrRes.stepsLeft (h : IsrRes s (.next t)) (h0 : s.ing.pos ≠ .i0)
    (h4 : s.ing.pos = .i4 → s.ing.n < s.cfg.drainBound) : ingestStepsLeft t + 1 ≤ ingestStepsLeft s := by
  cases h with
  | i0 hp => exact absurd hp h0
  | i4 f q hp =>
    have := h4 hp
    simp [ingestStepsLeft, hp]
    omega
  | i1_lost hp | i1 hp | i2 hp | i3_done hp | i3_more hp | i5_full hp | i5_stores hp | i6 hp =>
    simp [ingestStepsLeft, hp, pushed]

/-- Only i4 counts, below the bound; i2 starts from none. -/
theorem IsrRes.bound (h : IsrRes s (.next t)) (ha : s.ing.active = true) (h0 : s.ing.pos ≠ .i0)
    (h4 : s.ing.pos = .i4 → s.ing.n < s.cfg.drainBound)
    (hb : withinBound s) : withinBound t := by
  cases h with
  | i0 hp => exact absurd hp h0
  | i1_lost | i1 => exact .inl ⟨ha, .inr rfl⟩
  | i2 => exact .inr (Nat.zero_le _)
  | i4 f q hp => exact .inr (h4 hp)
  | i3_done hp | i3_more hp | i5_full hp | i5_stores hp | i6 hp => exact .inr (hb.resolve_left (by simp [hp]))

section
variable {v : State} (h : InsideIngest s v)
include h

theorem InsideIngest.keptBy_sched (q : List Turn) : InsideIngest s { v with sched := q } :=
  ⟨h.inv.keptBy_withSched q, h.kept, h.flags, h.entered, h.bound⟩

/-- A turn of the processor is the invocation's next step. -/
theorem InsideIngest.cpu (ha : v.ing.active = true) :
    ∃ t, isrStep v = .next t ∧ InsideIngest s t ∧ ingestStepsLeft t + 1 ≤ ingestStepsLeft v := by
  obtain ⟨t, ht, inv⟩ := isrStep_goes h.inv ha
  have res : IsrRes v (.next t) := ht ▸ isrStep_res v
  have below (h4 : v.ing.pos = .i4) := (h.inv.control.ingest ha h4).1
  have kept : keptByIngest (besidesIngest t) = keptByIngest (besidesIngest v) := congrArg keptByIngest res.besides
  refine ⟨t, ht, ⟨inv, kept.trans h.kept, ?_, ?_, res.bound ha (h.entered ha) below h.bound⟩,
    res.stepsLeft (h.entered ha) below⟩
  · exact ⟨fun hs => res.flags.1 (h.flags.1 hs), fun hs => res.flags.2 (h.flags.2 hs)⟩
  · cases res <;> nofun

/-- A turn of another agent takes none of its steps. -/
theorem InsideIngest.env {u : Turn} (hu : loopTurn u) (ha : v.ing.active = true) :
    ∃ t, envTurn u v = .next t ∧ InsideIngest s t ∧ ingestStepsLeft t = ingestStepsLeft v := by
  obtain ⟨t, ht⟩ := envTurn_goes_ingesting hu ha
  have inv : Sound [u] (.next t) := ht ▸ envTurn_sound h.inv u
  obtain ⟨ing, ovf, kept⟩ := envTurn_keeps_ingesting ha ht
  have cfg : t.cfg = v.cfg := envTurn_cfg ht
  exact ⟨t, ht, ⟨inv, kept.trans h.kept, ovf ▸ h.flags, ing ▸ h.entered, by rw [withinBound, ing, cfg]; exact h.bound⟩,
    by simp only [ingestStepsLeft, ing, cfg]⟩

theorem InsideIngest.turn {u : Turn} (hu : loopTurn u) (ha : v.ing.active = true) :
    ∃ t, turnInside u v = .next t ∧ InsideIngest s t ∧ ingestStepsLeft t + cpuTurns [u] ≤ ingestStepsLeft v := by
  have other := h.env hu ha
  cases u with
  | cpu =>
    obtain ⟨t, ht, hi, hm⟩ := h.cpu ha
    exact ⟨t, (cpuStep_isr ha).trans ht, hi, hm⟩
  | irq | bus | ext | user =>
    obtain ⟨t, ht, hi, hm⟩ := other
    exact ⟨t, ht, hi, hm.le⟩
  | op => exact hu.elim

end

theorem insideIngest_entered (hi : BlockInv s) : InsideIngest s (enterIngest s) :=
  ⟨hi.keptBy_enterIngest, rfl, ⟨id, id⟩, fun _ => nofun, .inl ⟨rfl, .inl rfl⟩⟩

/-- INGEST returns within the listed turns once enough of them are the processor's. -/
theorem exec_ingest_returns {p r : List Turn} (hi : BlockInv s) (hs : s.sched = p ++ r) (hp : ∀ u ∈ p, loopTurn u)
    (hc : 3 * s.cfg.drainBound + 4 ≤ cpuTurns p) (ha : s.ing.active = false) (hl : s.level ≠ .dlg) :
    ∃ t, exec .ingest s = .next t ∧ InsideIngest s t ∧ t.ing.active = false := by
  obtain ⟨t, -, ht, hit, hat, -⟩ := carryOn_returns (P := InsideIngest s) (m := ingestStepsLeft) (w := 0)
    (fun v hv h => ingestStepsLeft_pos (h.entered hv))
    (fun u q v hv _ hu h => by
      obtain ⟨t, ht, hit, hm⟩ := (h.keptBy_sched q).turn hu hv
      exact ⟨t, ht, hit, hm.trans (Nat.le_add_right _ _)⟩)
    p r (enterIngest s) hp (insideIngest_entered hi) (by simpa [ingestStepsLeft] using hc)
  exact ⟨t, by rw [exec_ingest_idle hl ha, hs]; exact ht, hit, hat⟩

/-- Settles O53: at its return the invocation has left the block as `InsideIngest` says. -/
theorem ingestReturnsWhateverBusDoes : Obligations.IngestReturnsWhateverBusDoes := by
  intro s p r hi hs hp hc ha hl
  obtain ⟨t, ht, hit, hat⟩ := exec_ingest_returns hi hs hp hc ha hl
  have kept := hit.kept
  simp only [keptByIngest, Prod.mk.injEq] at kept
  obtain ⟨cfg, main, tail, st, out, running, rxie⟩ := kept
  have bound : t.ing.n ≤ t.cfg.drainBound := hit.bound.resolve_left (by simp [hat])
  exact ⟨t, ht, hat, cfg ▸ bound, main, tail, st, out, running, rxie, hit.flags⟩

end

end Sys2Proof.Machine
end

section
/-! The Forwarder (45_forwarder.md): the labelled steps of DRAIN, DRAIN with nothing between its steps, and its return
whatever turns stand between them. -/

namespace Sys2Proof.Machine

section
variable {s t v : State}

/-! ### The labelled steps (45 R184 to R186) -/

theorem labelStep_d2_reports (h : s.main.fwH = true) :
    labelStep .d2 s = .next (goto .d3 (emit (.diag .hwLoss) (clearHardwareLoss s))) :=
  if_pos h

theorem labelStep_d2_silent (h : s.main.fwH = false) : labelStep .d2 s = .next (goto .d3 s) :=
  if_neg (by simp [h])

theorem labelStep_d4_reports (h : s.main.fwS = true) :
    labelStep .d4 s = .next (goto .d5 (emit (.diag .swLoss) (clearSoftwareLoss s))) :=
  if_pos h

theorem labelStep_d4_silent (h : s.main.fwS = false) : labelStep .d4 s = .next (goto .d5 s) :=
  if_neg (by simp [h])

theorem labelStep_d5_empty (h : s.rb.head = s.rb.tail) : labelStep .d5 s = .next (opReturn (takeIndices s)) :=
  if_pos ((ringEmpty_iff s).2 h)

theorem labelStep_d5_holds (h : s.rb.head ≠ s.rb.tail) : labelStep .d5 s = .next (goto .d6 (takeIndices s)) :=
  if_neg (mt (ringEmpty_iff s).1 h)

theorem memRead_of_written {i : Nat} {f : Frame} (hi : i < s.cfg.n) (hf : s.rb.slots.read i = some f)
    (k : Frame → Res) : memRead s i k = k f := by
  simp [memRead, hi, hf]

theorem labelStep_d6_copies {f : Frame} (hi : s.main.fwT < s.cfg.n) (hf : s.rb.slots.read s.main.fwT = some f) :
    labelStep .d6 s = .next (goto .d7 { s with main := { s.main with fwF := f } }) :=
  memRead_of_written hi hf _

/-- Settles O54: each flag's second step by the value its first has read. -/
theorem drainReadsThenClearsEachFlag : Obligations.DrainReadsThenClearsEachFlag :=
  fun _ => ⟨rfl, labelStep_d2_reports, labelStep_d2_silent, rfl, labelStep_d4_reports, labelStep_d4_silent⟩

/-- Settles O55: d5 by its test, d6 by the slot it reads, d7 and d8 each by their one equation. -/
theorem drainCopiesReleasesThenForwards : Obligations.DrainCopiesReleasesThenForwards :=
  fun _ => ⟨labelStep_d5_empty, labelStep_d5_holds, fun _ => labelStep_d6_copies, rfl, rfl⟩

/-! ### DRAIN, uninterrupted (45 R183, R190) -/

/-- DRAIN past its first step d1. -/
def drainBegun (s : State) : State :=
  { s with main := { s.main with op := some .d2, caller := .direct, fwH := s.ovf.hardwareLoss } }

theorem callStep_drain (s : State) : callStep .direct .drain s = .next (drainBegun s) := rfl

/-- DRAIN, issued by MAIN where it is free, reads the first flag and goes on with d2. -/
theorem exec_drain_free (hb : mainBusy s = false) (hl : s.level = .api ∨ s.level = .prim) :
    exec .drain s = carryOn opInProgress s.sched (drainBegun s) := by
  rw [exec_drain_consumer hl, callMain_free _ hb, callerAt_direct (ne_dlg_of_api_or_prim hl), callStep_drain]
  rfl

/-- Where the value d1 has read still stands, d2 leaves the flag clear, and reports it if it was set. -/
theorem labelStep_d2_read (h : s.main.fwH = s.ovf.hardwareLoss) :
    labelStep .d2 s = .next (goto .d3 { s with
      ovf := { s.ovf with hardwareLoss := false }
      out := s.out ++ if s.ovf.hardwareLoss then [.diag .hwLoss] else [] }) := by
  cases hf : s.ovf.hardwareLoss with
  | true => exact labelStep_d2_reports (h.trans hf)
  | false =>
    rw [labelStep_d2_silent (h.trans hf), if_neg nofun, List.append_nil, ← hf]

/-- Where the value d3 has read still stands, d4 leaves the flag clear, and reports it if it was set. -/
theorem labelStep_d4_read (h : s.main.fwS = s.ovf.softwareLoss) :
    labelStep .d4 s = .next (goto .d5 { s with
      ovf := { s.ovf with softwareLoss := false }
      out := s.out ++ if s.ovf.softwareLoss then [.diag .swLoss] else [] }) := by
  cases hf : s.ovf.softwareLoss with
  | true => exact labelStep_d4_reports (h.trans hf)
  | false =>
    rw [labelStep_d4_silent (h.trans hf), if_neg nofun, List.append_nil, ← hf]

/-- `s` with both flags reported and cleared by a DRAIN at its loop, `r` still listed. -/
def flagsReported (r : List Turn) (s : State) : State :=
  { s with
    sched := r
    ovf := ⟨false, false⟩
    out := s.out ++ (if s.ovf.hardwareLoss then [.diag .hwLoss] else []) ++
      (if s.ovf.softwareLoss then [.diag .swLoss] else [])
    main := { s.main with
      op := some .d5, caller := .direct, fwH := s.ovf.hardwareLoss, fwS := s.ovf.softwareLoss } }

/-- d2 to d4 in three turns of the processor. -/
theorem carryOn_reportsFlags (r : List Turn) (ha : s.ing.active = false) :
    carryOn opInProgress (.cpu :: .cpu :: .cpu :: r) (drainBegun s) = carryOn opInProgress r (flagsReported r s) := by
  calc carryOn opInProgress (.cpu :: .cpu :: .cpu :: r) (drainBegun s)
    _ = carryOn opInProgress (.cpu :: .cpu :: r) _ := carryOn_op_next _ ha rfl (labelStep_d2_read rfl)
    _ = carryOn opInProgress (.cpu :: r) _ := carryOn_op_next _ ha rfl rfl
    _ = carryOn opInProgress r (flagsReported r s) := carryOn_op_next _ ha rfl (labelStep_d4_read rfl)

/-- `v`, at d5, with its oldest held frame `f` forwarded and `r` still listed. -/
def frameForwarded (f : Frame) (r : List Turn) (v : State) : State :=
  { v with
    sched := r
    out := v.out ++ [.frame f]
    rb := { v.rb with tail := reduceIndex v.cfg (v.rb.tail + 1) }
    main := { v.main with op := some .d5, fwT := v.rb.tail, fwHd := v.rb.head, fwF := f } }

/-- d5 to d8 in four turns of the processor. -/
theorem carryOn_forwards {f : Frame} (r : List Turn) (ha : v.ing.active = false) (ho : v.main.op = some .d5)
    (hne : v.rb.head ≠ v.rb.tail) (ht : v.rb.tail < v.cfg.n) (hf : v.rb.slots.read v.rb.tail = some f) :
    carryOn opInProgress (.cpu :: .cpu :: .cpu :: .cpu :: r) v =
      carryOn opInProgress r (frameForwarded f r v) := by
  calc carryOn opInProgress (.cpu :: .cpu :: .cpu :: .cpu :: r) v
    _ = carryOn opInProgress (.cpu :: .cpu :: .cpu :: r)
          (goto .d6 (takeIndices { v with sched := .cpu :: .cpu :: .cpu :: r })) :=
        carryOn_op_next _ ha ho (labelStep_d5_holds hne)
    _ = carryOn opInProgress (.cpu :: .cpu :: r)
          { v with
            sched := .cpu :: .cpu :: r
            main := { v.main with op := some .d7, fwT := v.rb.tail, fwHd := v.rb.head, fwF := f } } :=
        carryOn_op_next _ ha rfl (labelStep_d6_copies ht hf)
    _ = carryOn opInProgress (.cpu :: r)
          { frameForwarded f (.cpu :: r) v with
            out := v.out
            main := { (frameForwarded f (.cpu :: r) v).main with op := some .d8 } } :=
        carryOn_op_next _ ha rfl rfl
    _ = carryOn opInProgress r (frameForwarded f r v) := carryOn_op_next _ ha rfl rfl

/-- `v` after a DRAIN at its loop has forwarded the frames `fs` held, and returned, with `r` still listed. -/
def allForwarded (fs : List Frame) (r : List Turn) (v : State) : State :=
  { v with
    sched := r
    out := v.out ++ fs.map .frame
    rb := { v.rb with tail := v.rb.head }
    main := { v.main with
      op := none, caller := .direct, fwT := v.rb.head, fwHd := v.rb.head, fwF := fs.getLastD v.main.fwF } }

theorem allForwarded_cons (f : Frame) (fs : List Frame) (r q : List Turn) (v : State) :
    allForwarded fs r (frameForwarded f q v) = allForwarded (f :: fs) r v := by
  simp only [allForwarded, frameForwarded, List.map_cons, List.getLastD_cons, List.append_assoc, List.singleton_append]

/-- The last d5 finds the ring empty. -/
theorem carryOn_drainReturns (r : List Turn) (ha : v.ing.active = false) (ho : v.main.op = some .d5)
    (he : v.rb.head = v.rb.tail) : carryOn opInProgress (.cpu :: r) v = .next (allForwarded [] r v) := by
  have released : { v.rb with tail := v.rb.head } = v.rb := congrArg (fun i => { v.rb with tail := i }) he
  calc carryOn opInProgress (.cpu :: r) v
    _ = carryOn opInProgress r (opReturn (takeIndices { v with sched := r })) :=
        carryOn_op_next _ ha ho (labelStep_d5_empty he)
    _ = .next (opReturn (takeIndices { v with sched := r })) := carryOn_done r rfl
    _ = .next (allForwarded [] r v) := by
        rw [allForwarded, released]
        simp [opReturn, takeIndices, he]

/-- Four turns of the processor forward each frame held, and one more finds the ring empty; by induction over the frames. -/
theorem carryOn_forwardsAll (r : List Turn) (fs : List Frame) :
    ∀ v : State, v.ing.active = false → v.main.op = some .d5 → v.rb.head < v.cfg.n → v.rb.tail < v.cfg.n →
      ringHeld v = fs.map some →
      carryOn opInProgress (List.replicate (4 * fs.length + 1) .cpu ++ r) v = .next (allForwarded fs r v) := by
  induction fs with
  | nil => exact fun v ha ho hh ht held => carryOn_drainReturns r ha ho ((ringHeld_eq_nil hh ht).1 held)
  | cons f fs ih =>
    intro v ha ho hh ht held
    have hne : v.rb.head ≠ v.rb.tail := mt (ringHeld_eq_nil hh ht).2 (by simp [held])
    have hf : v.rb.slots.read v.rb.tail = some f := read_tail_of_ringHeld ht held
    let q : List Turn := List.replicate (4 * fs.length + 1) .cpu ++ r
    have taken : ringHeld v = some f :: ringHeld (frameForwarded f q v) := ringHeld_pop hh ht hne hf rfl rfl
    calc carryOn opInProgress (List.replicate (4 * (f :: fs).length + 1) .cpu ++ r) v
      _ = carryOn opInProgress (.cpu :: .cpu :: .cpu :: .cpu :: q) v := rfl
      _ = carryOn opInProgress q (frameForwarded f q v) := carryOn_forwards q ha ho hne ht hf
      _ = .next (allForwarded fs r (frameForwarded f q v)) :=
          ih _ ha rfl hh (reduceIndex_lt _ _) (List.cons.inj (taken.symm.trans held)).2
      _ = .next (allForwarded (f :: fs) r v) := by rw [allForwarded_cons]

/-- Settles O56: d2 to d4 report the flags, then the loop forwards what the ring holds. -/
theorem drainReportsThenForwardsAll : Obligations.DrainReportsThenForwardsAll := by
  intro s r hi hs hb hl
  obtain ⟨fs, hq⟩ := hi.data.exists_holdsQueue hl hb
  refine ⟨fs, hq.held, ?_⟩
  let q : List Turn := List.replicate (4 * fs.length + 1) .cpu ++ r
  have turns : s.sched = .cpu :: .cpu :: .cpu :: q := by rw [hs, ← hq.length_eq]; rfl
  calc exec .drain s
    _ = carryOn opInProgress (.cpu :: .cpu :: .cpu :: q) (drainBegun s) := by rw [exec_drain_free hb hl, turns]
    _ = carryOn opInProgress q (flagsReported q s) := carryOn_reportsFlags q hq.idle
    _ = .next (allForwarded fs r (flagsReported q s)) :=
        carryOn_forwardsAll r fs _ hq.idle rfl hq.head_lt hq.tail_lt hq.held

/-! ### DRAIN, whatever turns stand between its steps (45 R190) -/

/-- What DRAIN, and the turns between its steps, leave as it is: parameters, the position of the loop, status, and whether
the peripheral runs with its interrupt enabled. -/
def keptByDrain (s : State) : Config.Params × MainPos × BusStatus × Bool × Bool :=
  (s.cfg, s.main.pos, s.st, s.per.running, s.per.rxie)

/-- `v` is reached by a DRAIN called in `s`, past d1; its labels are those of M4 (46 R196). -/
structure InsideDrain (s v : State) : Prop where
  inv : BlockInv v
  kept : keptByDrain v = keptByDrain s
  out : s.out <+: v.out
  place : ∀ l, v.main.op = some l → labelAt .m4 l = true
  entered : v.ing.active = true → v.ing.pos ≠ .i0
  returned : v.main.op = none → v.rb.head = v.rb.tail ∧ v.ing.active = false

theorem insideDrain_begun (hi : BlockInv s) (hb : mainBusy s = false) : InsideDrain s (drainBegun s) := by
  obtain ⟨free, idle, -⟩ := mainBusy_eq_false.1 hb
  have inv : Sound [] (.next (drainBegun s)) := callStep_drain s ▸ callStep_sound hi free idle .direct .drain
  have idle : ¬(drainBegun s).ing.active = true := by simp [drainBegun, idle]
  exact ⟨inv, rfl, List.prefix_refl _, fun _ hl => Option.some.inj hl ▸ rfl, fun ha => absurd ha idle, nofun⟩

/-- How many of DRAIN's steps are left, should nothing more be stored in the ring. -/
def drainStepsLeft (s : State) : Nat :=
  match s.main.op with
  | some .d1 => 4 * occupancy s + 5
  | some .d2 => 4 * occupancy s + 4
  | some .d3 => 4 * occupancy s + 3
  | some .d4 => 4 * occupancy s + 2
  | some .d5 => 4 * occupancy s + 1
  | some .d6 => 4 * occupancy s
  | some .d7 => 4 * occupancy s - 1
  | some .d8 => 4 * occupancy s + 2
  | _ => 0

/-- How many frames the invocation in progress can still store in the ring. -/
def pushesLeft (s : State) : Nat :=
  match s.ing.pos with
  | .i0 | .i6 => 0
  | .i1 | .i2 => s.cfg.drainBound
  | .i3 | .i4 => s.cfg.drainBound - s.ing.n
  | .i5 => s.cfg.drainBound - s.ing.n + 1

/-- The most turns of the processor DRAIN needs to return: its own steps, those of the invocation in progress, and four
for each frame that one can still store. -/
def drainTurnsLeft (s : State) : Nat :=
  drainStepsLeft s + if s.ing.active then ingestStepsLeft s + 4 * pushesLeft s else 0

theorem drainTurnsLeft_idle (ha : s.ing.active = false) : drainTurnsLeft s = drainStepsLeft s := by
  simp [drainTurnsLeft, ha]

theorem drainTurnsLeft_ingesting (ha : s.ing.active = true) :
    drainTurnsLeft s = drainStepsLeft s + (ingestStepsLeft s + 4 * pushesLeft s) := by
  simp [drainTurnsLeft, ha]

theorem drainTurnsLeft_congr (hc : t.cfg = v.cfg) (hm : t.main = v.main) (hr : t.rb = v.rb) (hi : t.ing = v.ing) :
    drainTurnsLeft t = drainTurnsLeft v := by
  simp only [drainTurnsLeft, drainStepsLeft, ingestStepsLeft, pushesLeft, occupancy, hc, hm, hr, hi]

/-- Each frame stored since costs DRAIN four steps at most. -/
theorem drainStepsLeft_le {k : Nat} (hm : t.main = v.main) (ho : occupancy t ≤ occupancy v + k) :
    drainStepsLeft t ≤ drainStepsLeft v + 4 * k := by
  unfold drainStepsLeft
  rw [hm]
  split <;> omega

section
variable {l : Label} (hr : LabelRes v l (.next t)) (hl : labelAt .m4 l = true)
include hr hl

/-- DRAIN's steps append to the output (45 R184 to R186). -/
theorem LabelRes.keptByDrain : keptByDrain t = keptByDrain v ∧ v.out <+: t.out := by
  cases hr with
  | d1 | d2 | d3 | d4 | d5_empty | d5_holds | d6 | d7 => exact ⟨rfl, List.prefix_refl _⟩
  | d2_reports | d4_reports | d8 => exact ⟨rfl, List.prefix_append _ _⟩
  | _ => cases hl

/-- DRAIN goes on at a label of its own, or returns on an empty ring. -/
theorem LabelRes.drainPlace : (∀ l', t.main.op = some l' → labelAt .m4 l' = true) ∧
    (t.main.op = none → t.rb.head = t.rb.tail) := by
  cases hr with
  | d1 | d2 | d2_reports | d3 | d4 | d4_reports | d5_holds | d6 | d7 | d8 =>
    exact ⟨fun _ ho => Option.some.inj ho ▸ rfl, nofun⟩
  | d5_empty he => exact ⟨nofun, fun _ => he⟩
  | _ => cases hl

/-- Each step brings the return nearer; d7 releases a slot. -/
theorem LabelRes.drainStepsLeft_lt (hi : BlockInv v) (ho : v.main.op = some l) :
    drainStepsLeft t < drainStepsLeft v := by
  have at_l := hi.control.atLabel ho
  cases hr with
  | d1 | d2 | d2_reports | d3 | d4 | d4_reports | d5_empty | d5_holds =>
    simp [drainStepsLeft, ho, opReturn, occupancy]
  | d6 =>
    have held := occupancy_pos hi.data at_l.2
    simpa [drainStepsLeft, ho, occupancy] using held
  | d7 =>
    obtain ⟨⟨htail, hne⟩, -⟩ := at_l
    have released := occupancy_pop (t := goto .d8 (setTail (reduceIndex v.cfg (v.main.fwT + 1)) v))
      hi.data.indices.1 hi.data.indices.2 hne rfl (by rw [htail]; rfl) rfl
    simp only [drainStepsLeft, ho, goto_main]
    omega
  | d8 => simp [drainStepsLeft, ho, occupancy]
  | _ => cases hl

end

/-- Only i5 stores a frame, one of those the invocation can still store. -/
theorem IsrRes.storesWithin (hr : IsrRes v (.next t)) (hi : BlockInv v) (h0 : v.ing.pos ≠ .i0)
    (h4 : v.ing.pos = .i4 → v.ing.n < v.cfg.drainBound) :
    ∃ k, occupancy t ≤ occupancy v + k ∧ pushesLeft t + k ≤ pushesLeft v := by
  cases hr with
  | i0 hp => exact absurd hp h0
  | i1_lost hp | i1 hp | i2 hp | i3_done hp | i3_more hp | i5_full hp | i6 hp =>
    exact ⟨0, le_rfl, by simp [pushesLeft, hp]⟩
  | i4 f q hp =>
    have below := h4 hp
    refine ⟨0, le_rfl, ?_⟩
    simp [pushesLeft, hp]
    omega
  | i5_stores hp hf =>
    exact ⟨1, Nat.le_of_eq (occupancy_push hi.data.indices.1 hi.data.indices.2 hf rfl rfl rfl), by
      simp [pushesLeft, hp, pushed]⟩

/-- From the invariant a step of DRAIN is neither at a fault nor refused. -/
theorem drainLabel_goes {l : Label} (hi : BlockInv v) (ha : v.ing.active = false) (ho : v.main.op = some l)
    (hl : labelAt .m4 l = true) : ∃ t, labelStep l v = .next t ∧ BlockInv t := by
  have sound := labelStep_sound hi ha ho
  have res := labelStep_res l v
  generalize labelStep l v = r at sound res
  cases r with
  | next t => exact ⟨t, rfl, sound⟩
  | fault e =>
    obtain ⟨u, hu, -⟩ := sound
    cases hu
  | refused e => cases res <;> cases hl

/-- What DRAIN decides on, and what it writes. -/
def readByDrain (s : State) :
    Config.Params × MainCtl × Ring × IngestCtl × List Event × BusStatus × Bool × Bool :=
  (s.cfg, s.main, s.rb, s.ing, s.out, s.st, s.per.running, s.per.rxie)

section
variable (h : InsideDrain s v)
include h

/-- A change of nothing DRAIN decides on or writes. -/
theorem InsideDrain.unmoved (inv : BlockInv t) (same : readByDrain t = readByDrain v) :
    InsideDrain s t ∧ drainTurnsLeft t = drainTurnsLeft v := by
  simp only [readByDrain, Prod.mk.injEq] at same
  obtain ⟨cfg, main, rb, ing, out, st, running, rxie⟩ := same
  have kept : keptByDrain t = keptByDrain v := by simp only [keptByDrain, cfg, main, st, running, rxie]
  exact ⟨⟨inv, kept.trans h.kept, out ▸ h.out, main ▸ h.place, ing ▸ h.entered, by rw [main, rb, ing]; exact h.returned⟩,
    drainTurnsLeft_congr cfg main rb ing⟩

/-- With no invocation in progress MAIN takes DRAIN's next step. -/
theorem InsideDrain.label {l : Label} (ha : v.ing.active = false) (ho : v.main.op = some l) :
    ∃ t, labelStep l v = .next t ∧ InsideDrain s t ∧ drainTurnsLeft t < drainTurnsLeft v := by
  have hl := h.place l ho
  obtain ⟨t, ht, inv⟩ := drainLabel_goes h.inv ha ho hl
  have res : LabelRes v l (.next t) := ht ▸ labelStep_res l v
  obtain ⟨kept, out⟩ := res.keptByDrain hl
  obtain ⟨place, empty⟩ := res.drainPlace hl
  have idle : t.ing.active = false := res.ing_eq ▸ ha
  refine ⟨t, ht, ⟨inv, kept.trans h.kept, h.out.trans out, place, by simp [idle], fun hn => ⟨empty hn, idle⟩⟩, ?_⟩
  rw [drainTurnsLeft_idle idle, drainTurnsLeft_idle ha]
  exact res.drainStepsLeft_lt hl h.inv ho

/-- An invocation that has interrupted DRAIN takes its next step, and DRAIN stays where it is. -/
theorem InsideDrain.ingest (ha : v.ing.active = true) :
    ∃ t, isrStep v = .next t ∧ InsideDrain s t ∧ drainTurnsLeft t < drainTurnsLeft v := by
  obtain ⟨t, ht, inv⟩ := isrStep_goes h.inv ha
  have res : IsrRes v (.next t) := ht ▸ isrStep_res v
  have below (h4 : v.ing.pos = .i4) := (h.inv.control.ingest ha h4).1
  have besides := eq_of_besidesIngest res.besides
  have kept : keptByDrain t = keptByDrain v := (congrArg keptByDrain besides).trans rfl
  have out : t.out = v.out := (congrArg State.out besides).trans rfl
  obtain ⟨-, -, -, -, main⟩ := res.keeps
  refine ⟨t, ht, ⟨inv, kept.trans h.kept, out ▸ h.out, main ▸ h.place, by cases res <;> nofun, fun hn => ?_⟩, ?_⟩
  · obtain ⟨-, idle⟩ := h.returned (main ▸ hn)
    exact absurd (idle.symm.trans ha) nofun
  · obtain ⟨k, stored, left⟩ := res.storesWithin h.inv (h.entered ha) below
    have steps := res.stepsLeft (h.entered ha) below
    have costs := drainStepsLeft_le main stored
    rw [drainTurnsLeft_ingesting ha, drainTurnsLeft]
    split <;> omega

theorem InsideDrain.cpu (ho : opInProgress v = true) :
    ∃ t, cpuStep v = .next t ∧ InsideDrain s t ∧ drainTurnsLeft t < drainTurnsLeft v := by
  cases ha : v.ing.active with
  | true => exact cpuStep_isr ha ▸ h.ingest ha
  | false =>
    obtain ⟨l, hl⟩ := Option.isSome_iff_exists.1 ho
    exact cpuStep_op ha hl ▸ h.label ha hl

/-- An interrupt turn lets an invocation begin, of 3 DRAIN_BOUND + 4 steps and DRAIN_BOUND frames at the most. -/
theorem InsideDrain.irq (ho : opInProgress v = true) :
    ∃ t, envTurn .irq v = .next t ∧ InsideDrain s t ∧
      drainTurnsLeft t ≤ drainTurnsLeft v + (7 * s.cfg.drainBound + 4) := by
  cases he : ingestEnabled v with
  | false => exact ⟨v, if_neg (by simp [he]), h, Nat.le_add_right _ _⟩
  | true =>
    have idle : v.ing.active = false := by simpa using (Bool.and_eq_true_iff.1 he).2
    have cfg : v.cfg = s.cfg := congrArg Prod.fst h.kept
    have inside : InsideDrain s (enterIngest v) :=
      ⟨h.inv.keptBy_enterIngest, h.kept, h.out, h.place, fun _ => nofun, fun hn => by
        simp [opInProgress, show v.main.op = none from hn] at ho⟩
    refine ⟨enterIngest v, if_pos he, inside, ?_⟩
    have steps : drainStepsLeft (enterIngest v) = drainStepsLeft v := rfl
    rw [drainTurnsLeft_ingesting rfl, drainTurnsLeft_idle idle, steps]
    simp only [ingestStepsLeft, pushesLeft, enterIngest_ing, enterIngest_cfg, cfg]
    omega

theorem InsideDrain.turn {u : Turn} (ho : opInProgress v = true) (hu : loopTurn u) :
    ∃ t, turnInside u v = .next t ∧ InsideDrain s t ∧
      drainTurnsLeft t + cpuTurns [u] ≤ drainTurnsLeft v + (7 * s.cfg.drainBound + 4) * irqTurns [u] := by
  have other {t : State} (ht : envTurn u v = .next t) (inv : BlockInv t) (same : readByDrain t = readByDrain v) :
      ∃ t, envTurn u v = .next t ∧ InsideDrain s t ∧
        drainTurnsLeft t ≤ drainTurnsLeft v + (7 * s.cfg.drainBound + 4) * irqTurns [u] := by
    obtain ⟨inside, left⟩ := h.unmoved inv same
    exact ⟨t, ht, inside, left.le.trans (Nat.le_add_right _ _)⟩
  cases u with
  | cpu => simpa [turnInside, cpuTurns, irqTurns] using h.cpu ho
  | irq => simpa [turnInside, cpuTurns, irqTurns] using h.irq ho
  | bus f =>
    refine other (if_pos hu) (h.inv.keptBy_arrives hu) ?_
    obtain ha | ⟨-, -, ha⟩ | ⟨-, -, ha⟩ := busArrives_cases f v <;> rw [ha] <;> rfl
  | ext => exact other rfl (h.inv.of_same rfl) rfl
  | user c => exact other rfl (h.inv.keptBy_userSends c) rfl
  | op => exact hu.elim

end

/-- DRAIN returns within the listed turns once enough of them are the processor's. -/
theorem exec_drain_returns {p r : List Turn} (hi : BlockInv s) (hs : s.sched = p ++ r) (hp : ∀ u ∈ p, loopTurn u)
    (hc : 4 * occupancy s + 4 + (7 * s.cfg.drainBound + 4) * irqTurns p ≤ cpuTurns p)
    (hb : mainBusy s = false) (hl : s.level = .api ∨ s.level = .prim) :
    ∃ t, exec .drain s = .next t ∧ InsideDrain s t ∧ t.main.op = none := by
  have begun : drainTurnsLeft (drainBegun s) = 4 * occupancy s + 4 := drainTurnsLeft_idle (mainBusy_eq_false.1 hb).2.1
  have positive (v : State) (ho : opInProgress v = true) (hv : InsideDrain s v) : 0 < drainTurnsLeft v := by
    obtain ⟨t, -, -, less⟩ := hv.cpu ho
    exact Nat.zero_lt_of_lt less
  have goes (u : Turn) (q : List Turn) (v : State) (ho : opInProgress v = true) (hu : loopTurn u)
      (hv : InsideDrain s v) : ∃ t, turnInside u { v with sched := q } = .next t ∧ InsideDrain s t ∧
        drainTurnsLeft t + cpuTurns [u] ≤ drainTurnsLeft v + (7 * s.cfg.drainBound + 4) * irqTurns [u] := by
    obtain ⟨hq, same⟩ := hv.unmoved (hv.inv.keptBy_withSched q) rfl
    exact same ▸ hq.turn ho hu
  obtain ⟨t, -, ht, hit, ho, -⟩ := carryOn_returns positive (fun u q v ho _ => goes u q v ho) p r (drainBegun s) hp
    (insideDrain_begun hi hb) (begun ▸ hc)
  exact ⟨t, by rw [exec_drain_free hb hl, hs]; exact ht, hit, by simpa [opInProgress] using ho⟩

/-- Settles O57: at its return DRAIN has left the block as `InsideDrain` says; with no turn listed it stays past d1. -/
theorem drainCompletesUnderEveryListedSchedule : Obligations.DrainCompletesUnderEveryListedSchedule := by
  refine ⟨fun s p r hi hs hp hc hb hl => ?_, fun s hs hb hl => ?_⟩
  · obtain ⟨t, ht, inside, ho⟩ := exec_drain_returns hi hs hp hc hb hl
    obtain ⟨empty, idle⟩ := inside.returned ho
    have kept := inside.kept
    simp only [keptByDrain, Prod.mk.injEq] at kept
    obtain ⟨-, pos, st, running, rxie⟩ := kept
    obtain ⟨l, out⟩ := inside.out
    exact ⟨t, ht, empty, ho, pos, idle, st, running, rxie, l, out.symm⟩
  · exact (exec_drain_free hb hl).trans (congrArg (carryOn opInProgress · (drainBegun s)) hs)

end

end Sys2Proof.Machine
end

section
/-! The mainline loop (46_operating_state_machine.md): MAIN's step at each position of the loop, what follows the return
of an operation it called, the dialog's dispatch, QUIT and EXT_REQ. -/

namespace Sys2Proof.Machine

section
variable {s t : State} {l : Label} {r : List Turn}

/-! ### A turn of the processor with no invocation in progress -/

theorem step_cpu_main (hs : s.sched = .cpu :: r) (ha : s.ing.active = false) :
    step s = mainStep { s with sched := r } :=
  (step_listed hs).trans (if_neg (by simp [ha]))

theorem step_cpu_op (hs : s.sched = .cpu :: r) (ha : s.ing.active = false) (ho : s.main.op = some l) :
    step s = goOn { s with sched := r } :=
  (step_cpu_main hs ha).trans (mainStep_op ho)

theorem step_cpu_call {c : Call} {q : List Call} (hs : s.sched = .cpu :: r) (ha : s.ing.active = false)
    (ho : s.main.op = none) (hc : s.calls = c :: q) :
    step s = callStep .direct c { s with sched := r, calls := q } :=
  (step_cpu_main hs ha).trans (mainStep_call (s := { s with sched := r }) ho hc)

theorem step_cpu_loop (hs : s.sched = .cpu :: r) (ha : s.ing.active = false) (ho : s.main.op = none)
    (hc : s.calls = []) : step s = loopStep { s with sched := r } :=
  (step_cpu_main hs ha).trans (mainStep_loop ho hc)

/-! ### Inside an operation, and at its return (46 R196; log 15) -/

/-- `t`, reached by a labelled step of an operation that `who` called, with MAIN moved on if the loop's has returned. -/
def settled (who : Caller) (t : State) : State := if who = .loop then advance t else t

theorem goOn_eq (ho : s.main.op = some l) :
    goOn s = andThen (labelStep l s) (fun t => .next (settled s.main.caller t)) := by
  simp only [goOn, opStep, ho]
  rfl

theorem advance_inside (h : t.main.op ≠ none) : advance t = t :=
  if_pos (Option.isSome_iff_ne_none.2 h)

theorem settled_inside (who : Caller) (h : t.main.op ≠ none) : settled who t = t := by
  cases who with
  | loop => exact advance_inside h
  | direct | quit => rfl

theorem settled_elsewhere {who : Caller} (h : who ≠ .loop) (t : State) : settled who t = t := if_neg h

/-- An operation called at M1 or M3 returns to the dialog. -/
theorem advance_toDialog (ho : t.main.op = none) (hp : t.main.pos = .m1 ∨ t.main.pos = .m3) :
    advance t = setPos .m2 t := by
  obtain hp | hp := hp <;> simp [advance, ho, hp]

theorem advance_fromDrain (ho : t.main.op = none) (hp : t.main.pos = .m4) : advance t = setPos .m0 t := by
  simp [advance, ho, hp]

/-! ### A waiting call runs as it would be issued with nothing listed (log 12) -/

/-- `s` with other turns listed, other calls waiting and another level: what no call reads. -/
def placed (us : List Turn) (cs : List Call) (lvl : Level) (s : State) : State :=
  { s with sched := us, calls := cs, level := lvl }

/-- Two steps that make the same test go alike where their branches do. -/
theorem ite_eq_andThen {p : Prop} [Decidable p] {a b a' b' : Res} {k : State → Res} (ha : a = andThen a' k)
    (hb : b = andThen b' k) : (if p then a else b) = andThen (if p then a' else b') k := by
  rw [ha, hb, ← apply_ite (andThen · k)]

section
variable (us : List Turn) (cs : List Call) (lvl : Level)

theorem stepCfgManual_placed (b : U32) (s : State) :
    stepCfgManual b (placed us cs lvl s) = andThen (stepCfgManual b s) (fun t => .next (placed us cs lvl t)) := by
  refine ite_eq_andThen rfl ?_
  dsimp only [placed]
  cases findEntry s.cfg.table b <;> rfl

theorem ringPop_placed (s : State) :
    ringPop (placed us cs lvl s) = andThen (ringPop s) (fun t => .next (placed us cs lvl t)) := by
  refine ite_eq_andThen rfl (ite_eq_andThen ?_ rfl)
  dsimp only [placed]
  cases s.rb.slots.read s.rb.tail <;> rfl

theorem stepT1_placed (s : State) :
    stepT1 (placed us cs lvl s) = andThen (stepT1 s) (fun t => .next (placed us cs lvl t)) :=
  ite_eq_andThen rfl (ite_eq_andThen rfl (ite_eq_andThen rfl rfl))

theorem stepA0_placed (s : State) :
    stepA0 (placed us cs lvl s) = andThen (stepA0 s) (fun t => .next (placed us cs lvl t)) :=
  ite_eq_andThen rfl rfl

theorem callStep_placed (who : Caller) (c : Call) (s : State) :
    callStep who c (placed us cs lvl s) = andThen (callStep who c s) (fun t => .next (placed us cs lvl t)) := by
  cases c with
  | cfgManual b => exact stepCfgManual_placed us cs lvl b s
  | cfgAuto v => exact stepA0_placed us cs lvl (goto .a0 (calledBy who s))
  | start => exact stepT1_placed us cs lvl (goto .t1 (calledBy who s))
  | rbPop => exact ringPop_placed us cs lvl s
  | getStatus p => cases p <;> rfl
  | setFm | stop | drain | rbReset => rfl

end

/-- MAIN's operations issued at the API level with MAIN free are calls. -/
theorem exec_call_api (c : Call) (hl : s.level = .api) (hb : mainBusy s = false) : exec c.instr s = callMain c s := by
  have consumer : s.level = .api ∨ s.level = .prim := .inl hl
  cases c with
  | cfgManual | cfgAuto | setFm | getStatus => rfl
  | start => exact exec_start_direct (ne_dlg_of_api_or_prim consumer)
  | stop => exact exec_stop_consumer consumer
  | drain => exact exec_drain_consumer consumer
  | rbPop => exact exec_rbPop_consumer consumer (popPartWay_free hb)
  | rbReset => exact exec_rbReset_consumer consumer (popPartWay_free hb) (mainBusy_eq_false.1 hb).2.1

/-- With no turn listed nothing follows the first step. -/
theorem exec_call_alone (c : Call) (hl : s.level = .api) (hb : mainBusy s = false) (hs : s.sched = [])
    (h : exec c.instr s = .next t) : callStep .direct c s = .next t := by
  rw [exec_call_api c hl hb, callMain_free c hb, hl] at h
  obtain ⟨v, hv, ht⟩ := andThen_eq_next.1 h
  rw [mainGoesOn, (callStep_next hv).sched, hs] at ht
  cases ht
  exact hv

/-- A waiting call is the call issued alone, with the turns, the calls and the level of now. -/
theorem callStep_of_exec_alone {c : Call} (q : List Call) (ho : s.main.op = none) (ha : s.ing.active = false)
    (h : exec c.instr { s with sched := [], calls := [], level := .api } = .next t) :
    callStep .direct c { s with sched := r, calls := q } =
      .next { t with sched := r, calls := q, level := s.level } := by
  have alone := exec_call_alone (s := { s with sched := [], calls := [], level := .api }) c rfl
    (mainBusy_eq_false.2 ⟨ho, ha, rfl⟩) rfl h
  have later := callStep_placed r q s.level .direct c { s with sched := [], calls := [], level := .api }
  rw [alone] at later
  exact later

/-! ### The loop between operations (46 R196) -/

/-- STOP past its step s1, called at M1. -/
theorem loopCall_stop (s : State) : loopCall .stop s = .next (goto .s2 (perIrqDisable (calledBy .loop s))) := rfl

/-- DRAIN past its step d1, called at M4. -/
theorem loopCall_drain (s : State) :
    loopCall .drain s = .next { s with main :=
      { s.main with fwH := s.ovf.hardwareLoss, op := some .d2, caller := .loop } } := rfl

section
variable (hs : s.sched = .cpu :: r) (ha : s.ing.active = false) (ho : s.main.op = none) (hc : s.calls = [])
include hs ha ho hc

theorem step_m0_configuring (hp : s.main.pos = .m0) (hm : s.mode = .configuring) :
    step s = .next (setPos .m1 { s with sched := r }) := by
  rw [step_cpu_loop hs ha ho hc]
  simp only [loopStep, hp, stepM0, hm]

theorem step_m0_capturing (hp : s.main.pos = .m0) (hm : s.mode = .capturing) :
    step s = .next (setPos .m4 { s with sched := r }) := by
  rw [step_cpu_loop hs ha ho hc]
  simp only [loopStep, hp, stepM0, hm]

theorem step_m1 (hp : s.main.pos = .m1) :
    step s = .next (goto .s2 (perIrqDisable (calledBy .loop { s with sched := r }))) := by
  rw [step_cpu_loop hs ha ho hc]
  simp only [loopStep, hp, loopCall_stop]

theorem step_m2_blocks (hp : s.main.pos = .m2) (hu : s.userq = []) : step s = .next { s with sched := r } := by
  rw [step_cpu_loop hs ha ho hc]
  simp only [loopStep, hp, stepM2, hu]

theorem step_m2_reads {c : PortWord} {q : List PortWord} (hp : s.main.pos = .m2) (hu : s.userq = c :: q) :
    step s = .next (readCommand c { s with sched := r, userq := q }) := by
  rw [step_cpu_loop hs ha ho hc]
  simp only [loopStep, hp, stepM2, hu]

theorem step_m3 (hp : s.main.pos = .m3) : step s = stepM3 { s with sched := r } := by
  rw [step_cpu_loop hs ha ho hc]
  simp only [loopStep, hp]

theorem step_m4 (hp : s.main.pos = .m4) :
    step s = .next { s with
      sched := r, main := { s.main with fwH := s.ovf.hardwareLoss, op := some .d2, caller := .loop } } := by
  rw [step_cpu_loop hs ha ho hc]
  simp only [loopStep, hp, loopCall_drain]

end

/-- Settles O8: inside an operation by `settled`; a waiting call by `callStep_placed`; else by the loop's position. -/
theorem mainlineLoopSteps : Obligations.MainlineLoopSteps := by
  intro s r hs ha
  refine ⟨fun l ho => ?_, fun c q t ho hc ht => ?_, fun ho hc => ?_⟩
  · have goes : step s = andThen (labelStep l { s with sched := r }) (fun t => .next (settled s.main.caller t)) :=
      (step_cpu_op hs ha ho).trans (goOn_eq (s := { s with sched := r }) ho)
    refine ⟨fun t ht => ⟨fun h => ?_, fun hn hw hp => ?_, fun hn hw hp => ?_⟩, fun e he => ?_, fun e he => ?_⟩
    · obtain h | h := h
      · rw [goes, ht, andThen_next, settled_inside _ h]
      · rw [goes, ht, andThen_next, settled_elsewhere h]
    · rw [goes, ht, hw]
      exact congrArg _ (advance_toDialog hn hp)
    · rw [goes, ht, hw]
      exact congrArg _ (advance_fromDrain hn hp)
    · rw [goes, he, andThen_fault]
    · rw [goes, he, andThen_refused]
  · exact (step_cpu_call hs ha ho hc).trans (callStep_of_exec_alone q ho ha ht)
  · exact ⟨step_m0_configuring hs ha ho hc, step_m0_capturing hs ha ho hc, step_m1 hs ha ho hc,
      step_m2_blocks hs ha ho hc, fun _ _ => step_m2_reads hs ha ho hc, step_m4 hs ha ho hc⟩

/-! ### The dialog dispatches (46 R198, R201, R202) -/

theorem stepM3_call {c : Call} (hd : decode s.main.cmd = .ok c.instr) (hc : dialogCall c = true) :
    stepM3 s = loopCall c { s with level := .dlg } := by
  cases c with
  | cfgManual | cfgAuto | setFm | getStatus => simp only [stepM3, hd, Call.instr]
  | start | stop | drain | rbPop | rbReset => cases hc

theorem stepM3_quit (hd : decode s.main.cmd = .ok .quit) : stepM3 s = beginQuit { s with level := .dlg } := by
  simp only [stepM3, hd]

/-- A call of one step is over with it: MAIN's control state is as it was. -/
theorem CallRes.main {who : Caller} {c : Call} (h : CallRes who s c (.next t)) (hc : c.firstLabel = none) :
    t.main = s.main := by
  cases h with
  | begins _ _ hl => cases hc.symm.trans hl
  | _ => rfl

/-- A command of one step, called at M3, is the issued one with MAIN at M2 after it. -/
theorem loopCall_oneStep {c : Call} (hc : c.firstLabel = none) (hl : s.level = .dlg) (hb : mainBusy s = false)
    (hp : s.main.pos = .m3) : loopCall c s = andThen (callMain c s) (fun t => .next (setPos .m2 t)) := by
  have free : s.main.op = none := (mainBusy_eq_false.1 hb).1
  rw [callMain_free c hb, hl, callerAt_dlg, loopCall]
  cases hv : callStep .loop c s with
  | next v =>
    have kept : v.main = s.main := (callStep_next hv).main hc
    have returned : v.main.op = none := kept ▸ free
    rw [andThen_next, andThen_next, mainGoesOn_done returned, andThen_next,
      advance_toDialog returned (.inr (kept ▸ hp))]
  | fault | refused => rfl

theorem beginQuit_configured (hr : s.per.running = false) (hc : s.st.configured = true) :
    beginQuit s = .next (goto .t2 (calledBy .quit s)) :=
  (if_neg (by simp [hr])).trans (if_pos hc)

/-- START's failure is reported and the dialog resumes, in the very step t1 (log 14). -/
theorem beginQuit_unconfigured (hr : s.per.running = false) (hc : s.st.configured = false) :
    beginQuit s = .next (quitFails (opReturn (returns (.bool false) s))) :=
  (if_neg (by simp [hr])).trans ((if_neg (by simp [hc])).trans (if_pos rfl))

/-- Settles O9: at M3 the command read is called; CFG_AUTO and QUIT go on with the step after their first. -/
theorem dialogDispatchesTheCommand : Obligations.DialogDispatchesTheCommand := by
  intro s r hs ha ho hc hp
  have m3 := step_m3 hs ha ho hc hp
  have oneStep (c : Call) (hd : decode s.main.cmd = .ok c.instr) (hc' : dialogCall c = true)
      (hf : c.firstLabel = none) :
      step s = andThen (callMain c { s with sched := r, level := .dlg }) (fun t => .next (setPos .m2 t)) := by
    rw [m3, stepM3_call (s := { s with sched := r }) hd hc']
    exact loopCall_oneStep hf rfl (mainBusy_eq_false.2 ⟨ho, ha, hc⟩) hp
  refine ⟨fun i hd hi => ?_, fun v hd hr => ?_, fun hd hr hst => ?_, fun hd hr hst => ?_⟩
  · obtain ⟨b, rfl⟩ | ⟨f, m, rfl⟩ | ⟨p, rfl⟩ := hi
    · exact oneStep (.cfgManual b) hd rfl rfl
    · exact oneStep (.setFm f m) hd rfl rfl
    · exact oneStep (.getStatus p) hd rfl rfl
  · rw [m3, stepM3_call (c := .cfgAuto v) (s := { s with sched := r }) hd rfl]
    have a0 := labelStep_a0_starts (s := goto .a0 (calledBy .loop { s with sched := r, level := .dlg })) hr
    exact congrArg (andThen · _) a0
  · rw [m3, stepM3_quit (s := { s with sched := r }) hd]
    exact beginQuit_configured hr hst
  · rw [m3, stepM3_quit (s := { s with sched := r }) hd]
    exact beginQuit_unconfigured hr hst

/-- The codes of the dialog's five commands (46 R198). -/
def commandCode (op : BitVec 4) : Bool := op == 0x1 || op == 0x2 || op == 0x3 || op == 0x4 || op == 0x8

theorem commandCode_eq_false {op : BitVec 4} (h1 : op ≠ 0x1) (h2 : op ≠ 0x2) (h3 : op ≠ 0x3) (h4 : op ≠ 0x4)
    (h8 : op ≠ 0x8) : commandCode op = false := by
  simp only [commandCode, beq_eq_false_iff_ne.2 h1, beq_eq_false_iff_ne.2 h2, beq_eq_false_iff_ne.2 h3,
    beq_eq_false_iff_ne.2 h4, beq_eq_false_iff_ne.2 h8, Bool.or_self]

/-- A word of another code shows the menu, an operation or none (30 R88; log 20). -/
theorem stepM3_menu (h : commandCode (opOf s.main.cmd) = false) : stepM3 s = .next (menu { s with level := .dlg }) := by
  unfold stepM3
  cases hd : decode s.main.cmd with
  | error e => rfl
  | ok i =>
    rw [(decode_reads hd).1] at h
    cases i with
    | cfgManual | cfgAuto | setFm | getStatus | quit => cases h
    | _ => rfl

theorem exec_menu {i : Instr} (h : commandCode i.opcode = false) (hl : s.level = .dlg) (hb : mainBusy s = false) :
    exec i s = .next (menu s) := by
  have shown (c : PortWord) (r : Res) : (if s.level = .dlg then .next (unrecognised c s) else r) = .next (menu s) := by
    rw [if_pos hl, unrecognised_free c hb]
  cases i with
  | cfgManual | cfgAuto | setFm | getStatus | quit => cases h
  | start | stop | drain | extReq | ingest | rbPush | rbPop | rbReset | busRx | reserved0 | reservedF =>
    exact shown _ _

/-- Settles O10: at M3 by the code of the word read; an issued operation by its own code. -/
theorem unrecognisedInputShowsTheMenu : Obligations.UnrecognisedInputShowsTheMenu :=
  ⟨fun s r hs ha ho hc hp h1 h2 h3 h4 h8 => (step_m3 hs ha ho hc hp).trans
      (stepM3_menu (s := { s with sched := r }) (commandCode_eq_false h1 h2 h3 h4 h8)),
    fun _ _ hl hb h1 h2 h3 h4 h8 => exec_menu (commandCode_eq_false h1 h2 h3 h4 h8) hl hb⟩

/-! ### From M0 in Configuring through STOP (46 R197) -/

theorem steps_succ {k : Nat} (h : step s = .next t) : steps (k + 1) s = steps k t := by
  simp only [steps, h, andThen_next]

/-- A labelled step that does not end its operation. -/
theorem step_cpu_goes (hs : s.sched = .cpu :: r) (ha : s.ing.active = false) (ho : s.main.op = some l)
    (h : labelStep l { s with sched := r } = .next t) (hn : t.main.op ≠ none) : step s = .next t := by
  rw [step_cpu_op hs ha ho, goOn_eq (s := { s with sched := r }) ho, h, andThen_next, settled_inside _ hn]

/-- STOP's last step moves MAIN on to M2. -/
theorem step_cpu_stopped (hs : s.sched = .cpu :: r) (ha : s.ing.active = false) (ho : s.main.op = some .s3)
    (hw : s.main.caller = .loop) (hp : s.main.pos = .m1) :
    step s = .next (setPos .m2 (opReturn (ringReset { s with sched := r }))) := by
  rw [step_cpu_op hs ha ho, goOn_eq (s := { s with sched := r }) ho, hw]
  exact congrArg _ (advance_toDialog (t := opReturn (ringReset { s with sched := r })) rfl (.inl hp))

/-- `s` inside the STOP called at M1, past s1, with `r` still listed. -/
def stopCalled (r : List Turn) (s : State) : State := perIrqDisable (calledBy .loop { s with sched := r })

/-- STOP called at M1, in three turns of the processor. -/
theorem steps_stop (hs : s.sched = .cpu :: .cpu :: .cpu :: r) (ha : s.ing.active = false) (ho : s.main.op = none)
    (hc : s.calls = []) (hp : s.main.pos = .m1) : steps 3 s = .next (setPos .m2 (stopped r s)) := by
  calc steps 3 s
    _ = steps 2 (goto .s2 (stopCalled (.cpu :: .cpu :: r) s)) := steps_succ (step_m1 hs ha ho hc hp)
    _ = steps 1 (goto .s3 (perStop (stopCalled (.cpu :: r) s))) :=
      steps_succ (step_cpu_goes (l := .s2) rfl ha rfl rfl nofun)
    _ = .next (setPos .m2 (opReturn (ringReset (goto .s3 (perStop (stopCalled r s)))))) :=
      steps_succ (step_cpu_stopped (s := goto .s3 (perStop (stopCalled (.cpu :: r) s))) rfl ha rfl rfl hp)
    _ = .next (setPos .m2 (stopped r s)) := rfl

/-- Settles O12: M0's test, then the three steps of STOP. -/
theorem enteringConfiguringStopsTheBus : Obligations.EnteringConfiguringStopsTheBus := by
  intro s r hs ha ho hc hp hm
  have m0 : steps 4 s = steps 3 (setPos .m1 { s with sched := .cpu :: .cpu :: .cpu :: r }) :=
    steps_succ (step_m0_configuring hs ha ho hc hp hm)
  refine ⟨_, m0.trans (steps_stop rfl ha ho hc rfl), ?_⟩
  simp [stopped, hm]

/-! ### EXT_REQ and QUIT (46 R200, R201, R203) -/

/-- Settles O13: EXT's step and the issued operation are `extRequest`. -/
theorem extRequestWritesOnlyMode : Obligations.ExtRequestWritesOnlyMode :=
  ⟨fun _ hop => decode_of_reads trivial hop trivial, fun _ hl => if_neg hl, fun _ _ hs => step_listed hs⟩

/-- Settles O59: QUIT has no operand, and its level is tested first. -/
theorem quitOutsideTheDialogIsRefused : Obligations.QuitOutsideTheDialogIsRefused :=
  ⟨fun _ hop => decode_of_reads trivial hop trivial, fun _ hl => if_neg hl⟩

theorem exec_quit_free (hb : mainBusy s = false) (hl : s.level = .dlg) :
    exec .quit s = andThen (beginQuit s) mainGoesOn := by
  simp [exec, execQuit, hl, hb]

/-- `s` inside the START that QUIT begins with, at label `l`, with the peripheral at `p` and `r` still listed. -/
def insideQuit (l : Label) (p : Peripheral) (r : List Turn) (s : State) : State :=
  { s with per := p, main := { s.main with op := some l, caller := .quit }, sched := r }

theorem labelStep_t4_quit (hq : s.main.caller = .quit) :
    labelStep .t4 s = .next (goto .q1 (returns (.bool true) (perIrqEnable s))) :=
  if_pos hq

/-- t2, t3, t4 and QUIT's write q1 in four turns of the processor. -/
theorem carryOn_quit (q r : List Turn) (ha : s.ing.active = false) :
    carryOn opInProgress (.cpu :: .cpu :: .cpu :: .cpu :: r) (insideQuit .t2 s.per q s) =
      .next (opReturn (setPos .m0
        { s with per := armedPeripheral s, ret := .bool true, mode := .capturing, sched := r })) := by
  calc carryOn opInProgress (.cpu :: .cpu :: .cpu :: .cpu :: r) (insideQuit .t2 s.per q s)
    _ = carryOn opInProgress (.cpu :: .cpu :: .cpu :: r)
          (insideQuit .t3 { s.per with filterId := s.st.filterId, maskId := s.st.maskId }
            (.cpu :: .cpu :: .cpu :: r) s) := carryOn_op_next _ ha rfl rfl
    _ = carryOn opInProgress (.cpu :: .cpu :: r)
          (insideQuit .t4 { armedPeripheral s with rxie := s.per.rxie } (.cpu :: .cpu :: r) s) :=
      carryOn_op_next _ ha rfl rfl
    _ = carryOn opInProgress (.cpu :: r)
          (returns (.bool true) (insideQuit .q1 (armedPeripheral s) (.cpu :: r) s)) :=
      carryOn_op_next _ ha rfl (labelStep_t4_quit rfl)
    _ = carryOn opInProgress r _ := carryOn_op_next _ ha rfl rfl
    _ = .next _ := carryOn_done r rfl

/-- Settles O58: configured, the four steps after t1 in the four turns listed; unconfigured, t1 itself reports. -/
theorem quitEntersCapturingIffConfigured : Obligations.QuitEntersCapturingIffConfigured := by
  refine ⟨fun s hb hl hr => ⟨fun r hc hs => ?_, fun hc => ?_⟩, fun s hq => ⟨labelStep_t4_quit hq, rfl⟩⟩
  · rw [exec_quit_free hb hl, beginQuit_configured hr hc, andThen_next]
    exact (congrArg (carryOn opInProgress · _) hs).trans (carryOn_quit s.sched r (mainBusy_eq_false.1 hb).2.1)
  · rw [exec_quit_free hb hl, beginQuit_unconfigured hr hc, andThen_next]
    exact mainGoesOn_done rfl

end

end Sys2Proof.Machine
end

section
/-! A run of the mainline loop alone (46_operating_state_machine.md R206): every turn keeps `LoopInv`, and none is
refused. -/

namespace Sys2Proof.Machine

/-! ### `LoopInv`, position by position -/

/-- The bus stopped, the interrupt disabled and the ring empty: `INV_M1` (46 R206). -/
def busQuiet (s : State) : Prop := s.per.running = false ∧ quiesced s

/-- What `LoopInv` says where MAIN is at label `l`. -/
def LoopAt (l : Label) (s : State) : Prop :=
  match l with
  | .t1 | .a0 | .a1 | .a2 | .a3 | .a4 | .a8 => busQuiet s
  | .t2 | .t3 => s.st.configured = true ∧ busQuiet s
  | .t4 => s.st.configured = true ∧ s.per.running = true ∧ quiesced s
  | .q1 => s.per.rxie = true
  | .a5 | .a6 | .a7 => quiesced s
  | .s2 => s.per.rxie = false
  | .s3 => s.per.rxie = false ∧ s.per.running = false
  | .s1 | .d1 | .d2 | .d3 | .d4 | .d5 | .d6 | .d7 | .d8 => True

/-- What a label needs is of the status, the peripheral and the ring. -/
theorem LoopAt.of_same {l : Label} {s t : State} (hl : LoopAt l s) (same : (t.st, t.per, t.rb) = (s.st, s.per, s.rb)) :
    LoopAt l t := by
  simp only [Prod.mk.injEq] at same
  obtain ⟨st, per, rb⟩ := same
  unfold LoopAt busQuiet quiesced at *
  rwa [st, per, rb]

/-- The position of the loop that calls the operation of label `l`. -/
def Label.home (l : Label) : MainPos :=
  match l with
  | .s1 | .s2 | .s3 => .m1
  | .t1 | .t2 | .t3 | .t4 | .q1 | .a0 | .a1 | .a2 | .a3 | .a4 | .a5 | .a6 | .a7 | .a8 => .m3
  | .d1 | .d2 | .d3 | .d4 | .d5 | .d6 | .d7 | .d8 => .m4

/-- Who calls the operation of label `l` in a run of the loop alone. -/
def Label.callerOf (l : Label) : Caller := if startLabel l then .quit else .loop

theorem labelAt_iff {p : MainPos} {l : Label} : labelAt p l = true ↔ p = l.home := by
  cases l <;> cases p <;> decide

/-- What `LoopInv` says wherever MAIN is. -/
structure LoopKeeps (s : State) : Prop where
  calls : s.calls = []
  armed : s.per.rxie = true → s.per.running = true ∧ s.st.configured = true
  capture : s.main.pos = .m4 → s.per.running = true ∧ s.per.rxie = true
  mode : s.mode = .capturing → (s.main.pos = .m0 ∨ s.main.pos = .m4) ∧ s.per.running = true ∧ s.per.rxie = true
  invocation : s.ing.active = true → s.per.rxie = true

variable {s t : State} {l : Label}

/-- With the interrupt disabled MAIN configures, and no invocation is in progress. -/
theorem LoopKeeps.of_disarmed (hx : s.per.rxie = false) (hc : s.calls = []) (hp : s.main.pos ≠ .m4)
    (hm : s.mode = .configuring) (ha : s.ing.active = false) : LoopKeeps s where
  calls := hc
  armed hr := nomatch hx.symm.trans hr
  capture h4 := absurd h4 hp
  mode hc' := nomatch hm.symm.trans hc'
  invocation ha' := nomatch ha.symm.trans ha'

theorem LoopInv.keeps (h : LoopInv s) : LoopKeeps s :=
  ⟨h.callers.1, h.armed, h.capture, h.mode, h.invocation⟩

theorem LoopInv.pos (h : LoopInv s) (ho : s.main.op = some l) : s.main.pos = l.home := labelAt_iff.1 (h.place l ho)

theorem LoopInv.caller (h : LoopInv s) (ho : s.main.op = some l) : s.main.caller = l.callerOf := h.callers.2 l ho

theorem LoopInv.at_label (h : LoopInv s) (ho : s.main.op = some l) : LoopAt l s := by
  have probe (ha : autoLabel l = true) := h.probe (by simp [probing, ho, ha])
  have still (ha : autoLabel l = true) (hn : l ≠ .a5 ∧ l ≠ .a6 ∧ l ≠ .a7) : busQuiet s :=
    ⟨Bool.eq_false_iff.2 fun hr => by simpa [ho, hn] using (probe ha).2 hr, (probe ha).1⟩
  cases l with
  | t1 => exact h.quitting (.inl ho)
  | t2 => exact ⟨h.starting.1 (.inl ho), h.quitting (.inr (.inl ho))⟩
  | t3 => exact ⟨h.starting.1 (.inr (.inl ho)), h.quitting (.inr (.inr ho))⟩
  | t4 => exact ⟨h.starting.1 (.inr (.inr ho)), h.starting.2.1 ho⟩
  | q1 => exact h.starting.2.2 ho
  | a0 | a1 | a2 | a3 | a4 | a8 => exact still rfl (by decide)
  | a5 | a6 | a7 => exact (probe rfl).1
  | s2 => exact h.stopping.1 (.inl ho)
  | s3 => exact ⟨h.stopping.1 (.inr ho), h.stopping.2 ho⟩
  | s1 | d1 | d2 | d3 | d4 | d5 | d6 | d7 | d8 => trivial

/-- MAIN is inside the operation its position calls. -/
theorem LoopInv.of_label (hk : LoopKeeps s) (ho : s.main.op = some l) (hp : s.main.pos = l.home)
    (hw : s.main.caller = l.callerOf) (hl : LoopAt l s) : LoopInv s where
  place l' ho' := by
    obtain rfl := Option.some.inj (ho.symm.trans ho')
    exact labelAt_iff.2 hp
  callers := ⟨hk.calls, fun l' ho' => by
    obtain rfl := Option.some.inj (ho.symm.trans ho')
    exact hw⟩
  dialog _ hn := nomatch ho.symm.trans hn
  quitting := by
    rintro (h | h | h) <;> cases ho.symm.trans h
    exacts [hl, hl.2, hl.2]
  starting := by
    refine ⟨?_, fun h => ?_, fun h => ?_⟩
    · rintro (h | h | h) <;> cases ho.symm.trans h <;> exact hl.1
    · cases ho.symm.trans h
      exact hl.2
    · cases ho.symm.trans h
      exact hl
  probe hp' := by
    simp only [probing, ho] at hp'
    cases l with
    | a0 | a1 | a2 | a3 | a4 | a8 => exact ⟨hl.2, fun hr => absurd (hl.1.symm.trans hr) nofun⟩
    | a5 | a6 | a7 => exact ⟨hl, fun _ => by simp [ho]⟩
    | _ => cases hp'
  stopping := by
    refine ⟨?_, fun h => ?_⟩
    · rintro (h | h) <;> cases ho.symm.trans h
      exacts [hl, hl.1]
    · cases ho.symm.trans h
      exact hl.2
  armed := hk.armed
  capture := hk.capture
  mode := hk.mode
  invocation := hk.invocation

/-- MAIN is between two operations. -/
theorem LoopInv.of_free (hk : LoopKeeps s) (ho : s.main.op = none)
    (hd : s.main.pos = .m2 ∨ s.main.pos = .m3 → busQuiet s) : LoopInv s where
  place _ ho' := nomatch ho.symm.trans ho'
  callers := ⟨hk.calls, fun _ ho' => nomatch ho.symm.trans ho'⟩
  dialog hp _ := hd hp
  quitting := by simp [ho]
  starting := by simp [ho]
  probe := by simp [probing, ho]
  stopping := by simp [ho]
  armed := hk.armed
  capture := hk.capture
  mode := hk.mode
  invocation := hk.invocation

/-- In the dialog with the bus quiet. -/
theorem LoopInv.of_dialog (ho : s.main.op = none) (hp : s.main.pos = .m2 ∨ s.main.pos = .m3) (hq : busQuiet s)
    (hc : s.calls = []) (hm : s.mode = .configuring) (ha : s.ing.active = false) : LoopInv s :=
  .of_free (.of_disarmed hq.2.1 hc (by rintro h4; simp [h4] at hp) hm ha) ho fun _ => hq

/-- Capturing is read at M0 and M4 only. -/
theorem LoopInv.configuring (h : LoopInv s) (h0 : s.main.pos ≠ .m0) (h4 : s.main.pos ≠ .m4) :
    s.mode = .configuring := by
  cases hm : s.mode with
  | configuring => rfl
  | capturing => exact absurd (h.mode hm).1 (not_or.2 ⟨h0, h4⟩)

theorem LoopInv.keptBy_withLevel (h : LoopInv s) (lvl : Level) : LoopInv { s with level := lvl } := { h with }

theorem LoopInv.keptBy_withSched (h : LoopInv s) (r : List Turn) : LoopInv { s with sched := r } := { h with }

/-- In the dialog the bus stays quiet through a step that leaves MAIN in it. -/
theorem LoopInv.keptBy_dialog (h : LoopInv s) (ho : s.main.op = none) (ha : s.ing.active = false)
    (hp : s.main.pos = .m2 ∨ s.main.pos = .m3) (hto : t.main.op = none) (htp : t.main.pos = .m2 ∨ t.main.pos = .m3)
    (same : (t.calls, t.mode, t.ing, t.per.running, t.per.rxie, t.rb) =
      (s.calls, s.mode, s.ing, s.per.running, s.per.rxie, s.rb)) : LoopInv t := by
  simp only [Prod.mk.injEq] at same
  obtain ⟨calls, mode, ing, running, rxie, rb⟩ := same
  obtain ⟨stopped, disarmed, head, tail⟩ := h.dialog hp ho
  have conf : s.mode = .configuring := by obtain hp | hp := hp <;> exact h.configuring (by simp [hp]) (by simp [hp])
  exact .of_dialog hto htp ⟨running.trans stopped, rxie.trans disarmed, rb ▸ head, rb ▸ tail⟩
    (calls.trans h.keeps.calls) (mode.trans conf) (ing ▸ ha)

/-! ### MAIN inside an operation -/

/-- The answer of a turn of the loop alone: `LoopInv` is kept, and nothing is refused. That a fault is excluded is
`Sound`'s part. -/
def LoopSafe (r : Res) : Prop :=
  match r with
  | .next t => LoopInv t
  | .fault _ => True
  | .refused _ => False

/-- What no step of STOP, START or CFG_AUTO writes. -/
def keptConfiguring (s : State) : List Call × Mode × IngestCtl × MainPos := (s.calls, s.mode, s.ing, s.main.pos)

section
variable (h : LoopInv s) (ho : s.main.op = some l)
include h ho

/-- MAIN goes on to a label of the same operation, at which what the label needs holds. -/
theorem LoopInv.goesOn {l' : Label} (hk : LoopKeeps t)
    (own : (l'.home, l'.callerOf, t.main.pos, t.main.caller) = (l.home, l.callerOf, s.main.pos, s.main.caller))
    (hl : LoopAt l' t) : LoopInv (settled s.main.caller (goto l' t)) := by
  simp only [Prod.mk.injEq] at own
  obtain ⟨home, owner, pos, who⟩ := own
  rw [settled_inside _ (show (goto l' t).main.op ≠ none from nofun)]
  exact .of_label { hk with } rfl (pos.trans ((h.pos ho).trans home.symm))
    (who.trans ((h.caller ho).trans owner.symm)) (hl.of_same rfl)

variable (ha : s.ing.active = false) (hm : l.home = .m1 ∨ l.home = .m3)
include ha hm

/-- Inside STOP, START and CFG_AUTO MAIN configures. -/
theorem LoopInv.configuring_inside (same : keptConfiguring t = keptConfiguring s) :
    t.calls = [] ∧ t.mode = .configuring ∧ t.ing.active = false ∧ t.main.pos = l.home := by
  simp only [keptConfiguring, Prod.mk.injEq] at same
  obtain ⟨calls, mode, ing, pos⟩ := same
  have home : s.main.pos = l.home := h.pos ho
  have conf : s.mode = .configuring := by
    obtain hm | hm := hm <;> exact h.configuring (by simp [home, hm]) (by simp [home, hm])
  exact ⟨calls.trans h.keeps.calls, mode.trans conf, ing ▸ ha, pos.trans home⟩

/-- A step of STOP, START or CFG_AUTO with the interrupt disabled after it. -/
theorem LoopInv.keeps_disarmed (hx : t.per.rxie = false) (same : keptConfiguring t = keptConfiguring s) :
    LoopKeeps t := by
  obtain ⟨calls, mode, idle, pos⟩ := h.configuring_inside ho ha hm same
  exact .of_disarmed hx calls (by obtain hm | hm := hm <;> simp [pos, hm]) mode idle

/-- STOP or CFG_AUTO returns to the dialog, with the bus quiet. -/
theorem LoopInv.returnsToDialog (hw : l.callerOf = .loop) (hto : t.main.op = none)
    (same : keptConfiguring t = keptConfiguring s) (hq : busQuiet t) : LoopInv (settled s.main.caller t) := by
  obtain ⟨calls, mode, idle, pos⟩ := h.configuring_inside ho ha hm same
  rw [h.caller ho, hw]
  have moved : settled .loop t = setPos .m2 t := advance_toDialog hto (pos ▸ hm)
  exact moved ▸ .of_dialog hto (.inl rfl) hq calls mode idle

end

/-- A labelled step of the operation in progress, and the move at its return. -/
theorem LabelRes.loopSafe {r : Res} (h : LoopInv s) (ha : s.ing.active = false) (ho : s.main.op = some l)
    (hr : LabelRes s l r) : LoopSafe (andThen r (fun t => .next (settled s.main.caller t))) := by
  have at_l := h.at_label ho
  have who := h.caller ho
  cases hr with
  | t1_running hr | a0_running hr => exact absurd (at_l.1.symm.trans hr) nofun
  | a2_outside | a8_outside | d6_unread => trivial
  | t1_fails _ hq | t4_returns hq => exact absurd who hq
  | t1_configured _ hc => exact h.goesOn ho h.keeps rfl ⟨hc, at_l⟩
  | t1_failsQuit _ hq =>
    obtain ⟨calls, mode, idle, -⟩ := h.configuring_inside ho ha (.inr rfl) rfl
    rw [andThen_next, settled_elsewhere (by simp [hq])]
    exact .of_dialog rfl (.inl rfl) at_l calls mode idle
  | t2 => exact h.goesOn ho { h.keeps with } rfl at_l
  | t3 =>
    obtain ⟨configured, -, quiet⟩ := at_l
    exact h.goesOn ho (h.keeps_disarmed ho ha (.inr rfl) quiet.1 rfl) rfl ⟨configured, rfl, quiet⟩
  | t4_quit =>
    obtain ⟨configured, running, -⟩ := at_l
    obtain ⟨-, mode, -, pos⟩ := h.configuring_inside ho ha (.inr rfl) rfl
    have armed : LoopKeeps (returns (.bool true) (perIrqEnable s)) :=
      { h.keeps with
        armed := fun _ => ⟨running, configured⟩
        capture := fun h4 => nomatch pos.symm.trans h4
        mode := fun hc => nomatch mode.symm.trans hc
        invocation := fun _ => rfl }
    exact h.goesOn ho armed rfl rfl
  | q1 =>
    rw [andThen_next, settled_elsewhere (by simp [who, Label.callerOf, startLabel])]
    exact .of_free { h.keeps with
      capture := nofun
      mode := fun _ => ⟨.inl rfl, (h.armed at_l).1, at_l⟩ } rfl nofun
  | s1 => exact h.goesOn ho (h.keeps_disarmed ho ha (.inl rfl) rfl rfl) rfl rfl
  | s2 => exact h.goesOn ho (h.keeps_disarmed ho ha (.inl rfl) at_l rfl) rfl ⟨at_l, rfl⟩
  | s3 => exact h.returnsToDialog ho ha (.inl rfl) rfl rfl rfl ⟨at_l.2, at_l.1, rfl, rfl⟩
  | a4 =>
    obtain ⟨-, quiet⟩ := at_l
    exact h.goesOn ho (h.keeps_disarmed ho ha (.inr rfl) quiet.1 rfl) rfl quiet
  | a7 => exact h.goesOn ho (h.keeps_disarmed ho ha (.inr rfl) at_l.1 rfl) rfl ⟨rfl, at_l⟩
  | a0 | a1_probes | a2 | a3 | a5 | a6 | a8_silent => exact h.goesOn ho { h.keeps with } rfl at_l
  | a1_exhausted | a8_found => exact h.returnsToDialog ho ha (.inr rfl) rfl rfl rfl at_l
  | d1 | d2_reports | d2 | d3 | d4_reports | d4 | d5_holds | d6 | d7 | d8 =>
    exact h.goesOn ho { h.keeps with } rfl trivial
  | d5_empty =>
    have moved : settled s.main.caller (opReturn (takeIndices s)) = setPos .m0 (opReturn (takeIndices s)) :=
      who ▸ advance_fromDrain (t := opReturn (takeIndices s)) rfl (h.pos ho)
    rw [andThen_next, moved]
    exact .of_free { h.keeps with
      capture := nofun
      mode := fun hc => ⟨.inl rfl, (h.mode hc).2⟩ } rfl nofun

theorem goOn_loopSafe (h : LoopInv s) (ha : s.ing.active = false) (ho : s.main.op = some l) : LoopSafe (goOn s) :=
  goOn_eq ho ▸ (labelStep_res l s).loopSafe h ha ho

/-! ### MAIN between operations -/

/-- An operation begins at the position that calls it, where what its first label needs holds. -/
theorem LoopInv.keptBy_begin (h : LoopInv s) (hp : s.main.pos = l.home) (hl : LoopAt l s) :
    LoopInv (goto l (calledBy l.callerOf s)) :=
  .of_label { h.keeps with } rfl hp rfl (hl.of_same rfl)

/-- The call of an operation from the loop, and its first step, are a step of that operation. -/
theorem loopCall_eq_goOn {c : Call} (hl : c.firstLabel = some l) (s : State) :
    loopCall c s = goOn (goto l (calledBy .loop s)) := by
  cases c <;> cases hl <;> rfl

theorem beginQuit_eq_goOn (s : State) : beginQuit s = goOn (goto .t1 (calledBy .quit s)) := by
  have t1 := goOn_eq (s := goto .t1 (calledBy .quit s)) rfl
  rw [t1, beginQuit, beginOp]
  cases labelStep .t1 (goto .t1 (calledBy .quit s)) <;> rfl

/-- A command of one step: it leaves the bus quiet, and MAIN moves on to M2. -/
theorem CallRes.loopSafe {c : Call} {r : Res} (h : LoopInv s) (ho : s.main.op = none) (ha : s.ing.active = false)
    (hp : s.main.pos = .m3) (hc : dialogCall c = true) (hf : c.firstLabel = none) (hr : CallRes .loop s c r) :
    LoopSafe (andThen r (fun t => .next (advance t))) := by
  have back {v : State} (hm : v.main = s.main)
      (same : (v.calls, v.mode, v.ing, v.per.running, v.per.rxie, v.rb) =
        (s.calls, s.mode, s.ing, s.per.running, s.per.rxie, s.rb)) : LoopInv (advance v) := by
    have returned : v.main.op = none := hm ▸ ho
    rw [advance_toDialog returned (.inr (hm ▸ hp))]
    exact h.keptBy_dialog ho ha (.inr hp) returned (.inl rfl) same
  cases hr with
  | running _ hr => exact nomatch (h.dialog (.inr hp) ho).1.symm.trans hr
  | found | missing | stores | prints | answers => exact back rfl rfl
  | begins _ _ hl => cases hf.symm.trans hl
  | popsNone | pops | popStops | resets => cases hc

theorem LoopRes.loopSafe {r : Res} (h : LoopInv s) (ho : s.main.op = none) (ha : s.ing.active = false)
    (hr : LoopRes s r) : LoopSafe r := by
  have begins {c : Call} {l : Label} (lvl : Level) (hl : c.firstLabel = some l) (hw : l.callerOf = .loop)
      (hp : s.main.pos = l.home) (at_l : LoopAt l s) : LoopSafe (loopCall c { s with level := lvl }) := by
    rw [loopCall_eq_goOn hl, ← hw]
    exact goOn_loopSafe ((h.keptBy_withLevel lvl).keptBy_begin hp (at_l.of_same rfl)) ha rfl
  cases hr with
  | configuring _ hm =>
    exact .of_free { h.keeps with
      capture := nofun
      mode := fun hc => absurd (hm.symm.trans hc) nofun } ho nofun
  | capturing _ hm =>
    exact .of_free { h.keeps with
      capture := fun _ => (h.mode hm).2
      mode := fun _ => ⟨.inr rfl, (h.mode hm).2⟩ } ho nofun
  | blocks => exact h
  | reads c q hp => exact h.keptBy_dialog ho ha (.inl hp) ho (.inr rfl) rfl
  | menu hp => exact h.keptBy_dialog ho ha (.inr hp) ho (.inl rfl) rfl
  | calls c lvl hc _ hr =>
    subst hr
    cases hc with
    | m1 hp => exact begins lvl rfl rfl hp trivial
    | m4 hp => exact begins lvl rfl rfl hp trivial
    | m3 _ hp hd hc =>
      have quiet : busQuiet s := h.dialog (.inr hp) ho
      have oneStep (hf : c.firstLabel = none) : LoopSafe (loopCall c { s with level := lvl }) :=
        (callStep_res .loop c _).loopSafe (h.keptBy_withLevel lvl) ho ha hp hc hf
      cases c with
      | cfgAuto => exact begins lvl rfl rfl hp quiet
      | cfgManual | setFm | getStatus => exact oneStep rfl
      | start | stop | drain | rbPop | rbReset => cases hc
  | quits hp _ _ hr =>
    rw [← hr, beginQuit_eq_goOn]
    exact goOn_loopSafe ((h.keptBy_withLevel .dlg).keptBy_begin (l := .t1) hp (h.dialog (.inr hp) ho)) ha rfl

theorem mainStep_loopSafe (h : LoopInv s) (ha : s.ing.active = false) : LoopSafe (mainStep s) := by
  cases ho : s.main.op with
  | some l => exact mainStep_op ho ▸ goOn_loopSafe h ha ho
  | none => exact mainStep_loop ho h.keeps.calls ▸ (loopStep_res s).loopSafe h ho ha

/-! ### The Ingest Path, and the turns of the other agents -/

/-- Where the interrupt is enabled, what an invocation writes is not read by `LoopInv`. -/
theorem LoopInv.keptBy_ingest (h : LoopInv s) (hx : s.per.rxie = true) (rb : Ring) (ovf : OverflowFlags)
    (rxq : List Frame) (lost : Bool) (ing : IngestCtl) (us : List Turn) :
    LoopInv { s with
      rb := rb, ovf := ovf, per := { s.per with rxq := rxq, lost := lost }, ing := ing, sched := us } :=
  have live {p : Prop} (hq : quiesced s) : p := nomatch hx.symm.trans hq.1
  have ⟨configured, atT4, _⟩ := h.starting
  { h with
    dialog := fun hp ho => live (h.dialog hp ho).2
    quitting := fun ho => live (h.quitting ho).2
    starting := ⟨configured, fun ho => live (atT4 ho).2, fun _ => hx⟩
    probe := fun hp => live (h.probe hp).1
    invocation := fun _ => hx }

theorem isrStep_loopSafe (h : LoopInv s) (ha : s.ing.active = true) : LoopSafe (isrStep s) := by
  have res := isrStep_res s
  generalize isrStep s = r at res
  cases r with
  | next t =>
    rw [eq_of_besidesIngest res.besides]
    exact h.keptBy_ingest (h.invocation ha) _ _ _ _ _ _
  | fault e => trivial
  | refused e => cases res

theorem LoopInv.keptBy_arrives (h : LoopInv s) (f : Frame) : LoopInv (busArrives f s) := by
  obtain hs | ⟨-, -, hs⟩ | ⟨-, -, hs⟩ := busArrives_cases f s <;> rw [hs]
  · exact h
  · exact { h with }
  · exact { h with }

theorem envTurn_loopSafe (h : LoopInv s) (u : Turn) : LoopSafe (envTurn u s) := by
  cases u with
  | cpu | op => exact h
  | irq =>
    simp only [envTurn]
    split
    next hi =>
      simp only [ingestEnabled, irqSignal, Bool.and_eq_true] at hi
      exact { h with invocation := fun _ => hi.1.1 }
    next => exact h
  | bus f =>
    simp only [envTurn]
    split
    · exact h.keptBy_arrives f
    · trivial
  | ext => exact { h with mode := nofun }
  | user c => exact { h with }

/-! ### The turn -/

theorem takeTurn_loopSafe {u : Turn} (h : LoopInv s) (hu : loopTurn u) : LoopSafe (takeTurn u s) := by
  cases u with
  | cpu =>
    simp only [takeTurn]
    split
    next ha => exact isrStep_loopSafe h ha
    next ha => exact mainStep_loopSafe h (Bool.not_eq_true _ ▸ ha)
  | irq => exact envTurn_loopSafe h .irq
  | bus f => exact envTurn_loopSafe h (.bus f)
  | ext => exact envTurn_loopSafe h .ext
  | user c => exact envTurn_loopSafe h (.user c)
  | op => exact hu.elim

/-- A turn of the loop takes no other listed turn, so only its own legality is asked for. -/
theorem takeTurn_sound_loop {u : Turn} (h : BlockInv s) (hu : loopTurn u) : Sound [u] (takeTurn u s) := by
  cases u with
  | cpu =>
    simp only [takeTurn]
    split
    next ha => exact (isrStep_sound h ha).mono (List.nil_subset _)
    next ha => exact (mainStep_sound h (Bool.not_eq_true _ ▸ ha)).mono (List.nil_subset _)
  | irq => exact envTurn_sound h .irq
  | bus f => exact envTurn_sound h (.bus f)
  | ext => exact envTurn_sound h .ext
  | user c => exact envTurn_sound h (.user c)
  | op => exact hu.elim

theorem turnOk_of_loopTurn {u : Turn} (hu : loopTurn u) : turnOk u := by
  cases u with
  | bus f => exact hu
  | op => exact hu.elim
  | cpu | irq | ext | user => trivial

/-- From the two invariants a turn of the loop alone goes on: a fault would be an illegal turn's. -/
theorem takeTurn_goes {u : Turn} (hi : BlockInv s) (h : LoopInv s) (hu : loopTurn u) :
    ∃ t, takeTurn u s = .next t ∧ LoopInv t := by
  have sound := takeTurn_sound_loop hi hu
  have safe := takeTurn_loopSafe h hu
  cases hr : takeTurn u s with
  | next t =>
    rw [hr] at safe
    exact ⟨t, rfl, safe⟩
  | fault e =>
    rw [hr] at sound
    obtain ⟨v, hv, illegal⟩ := sound
    exact absurd (turnOk_of_loopTurn hu) (List.mem_singleton.1 hv ▸ illegal)
  | refused e =>
    rw [hr] at safe
    exact safe.elim

/-- `INV_M1`: in the dialog the bus is quiet but for a probe that has programmed its entry and QUIT past t3. -/
theorem LoopInv.busQuiet (h : LoopInv s) (hp : s.main.pos = .m2 ∨ s.main.pos = .m3)
    (hl : ∀ l, s.main.op = some l → l ≠ .t4 ∧ l ≠ .q1 ∧ l ≠ .a3 ∧ l ≠ .a4 ∧ l ≠ .a5 ∧ l ≠ .a6 ∧ l ≠ .a7) :
    busQuiet s := by
  cases ho : s.main.op with
  | none => exact h.dialog hp ho
  | some l =>
    have at_l := h.at_label ho
    have other := hl l ho
    rw [h.pos ho] at hp
    cases l with
    | t1 | a0 | a1 | a2 | a8 => exact at_l
    | t2 | t3 => exact at_l.2
    | t4 | q1 | a3 | a4 | a5 | a6 | a7 => simp at other
    | s1 | s2 | s3 | d1 | d2 | d3 | d4 | d5 | d6 | d7 | d8 => simp [Label.home] at hp

/-- Settles O18: the turn goes on, and `INV_M1` to `INV_M4` are read off `LoopInv`. -/
theorem loopRunsWithoutRefusal : Obligations.LoopRunsWithoutRefusal := by
  intro s u r hi h hs hu
  obtain ⟨t, ht, inv⟩ := takeTurn_goes (hi.keptBy_withSched r) (h.keptBy_withSched r) hu
  exact ⟨t, (step_listed hs).trans ht, inv, inv.busQuiet, inv.armed, inv.capture, inv.invocation⟩

end Sys2Proof.Machine
end

section
/-! The interrupt (60_exceptions.md): when an invocation of the Ingest Path is enabled, its entry at the platform's turn, and
its return. -/

namespace Sys2Proof.Machine

section
variable {s : State}

/-! ### When an invocation is enabled (60 R221; 10 R40) -/

theorem ingestEnabled_iff :
    ingestEnabled s = true ↔ s.per.rxie = true ∧ s.per.rxq ≠ [] ∧ s.ing.active = false := by
  simp [ingestEnabled, irqSignal, and_assoc]

/-! ### Entry and return (60 R224, R225) -/

theorem envTurn_irq_enabled (h : ingestEnabled s = true) : envTurn .irq s = .next (enterIngest s) := if_pos h

theorem envTurn_irq_disabled (h : ¬ ingestEnabled s = true) : envTurn .irq s = .next s := if_neg h

theorem isrStep_i6 (hp : s.ing.pos = .i6) : isrStep s = .next (leaveIngest s) := by
  simp only [isrStep, hp, stepI6]

end

/-- Settles O48: the platform's turn is i0 where an invocation is enabled, and nothing elsewhere. -/
theorem invocationEntrySavesNothing : Obligations.InvocationEntrySavesNothing := by
  refine fun s r hs => ⟨fun h => ?_, fun h => ?_⟩
  · have enabled : ingestEnabled { s with sched := r } = true := ingestEnabled_iff.2 h
    exact (step_listed hs).trans (envTurn_irq_enabled enabled)
  · have disabled : ¬ ingestEnabled { s with sched := r } = true := mt ingestEnabled_iff.1 h
    exact (step_listed hs).trans (envTurn_irq_disabled disabled)

/-- Settles O49: i6 leaves `rxie` and the queue, and with `ing.active` cleared they alone enable the next invocation. -/
theorem invocationReturnRestoresNothing : Obligations.InvocationReturnRestoresNothing := by
  intro s r hs ha hp
  have returned : step s = .next (leaveIngest { s with sched := r }) := (step_cpu_ingest hs ha).trans (isrStep_i6 hp)
  exact ⟨_, returned, rfl, fun hx hq => ingestEnabled_iff.2 ⟨hx, hq, rfl⟩⟩

end Sys2Proof.Machine
end
